-- ==== Sys2Proof/Word.lean ====
section
/-! DEFINITION. The widths of the hardware (`00_scope.md` R6, R8): what the spec treats as bits is a bit vector. -/

namespace Sys2Proof

/-- A general register, HI, LO, the PC, an address, an instruction word (R6: XLEN = 32). -/
abbrev Word := BitVec 32

/-- The 16-bit half-word, also the width of an immediate field (R6, R62). -/
abbrev Half := BitVec 16

/-- One byte of memory (R6). -/
abbrev Byte := BitVec 8

/-- A register index: a 5-bit field, 0 to 31, so an index out of range cannot be written down (R11, D25). -/
abbrev Reg := BitVec 5

end Sys2Proof
end

