-- ==== Sys2Proof/Syntax.lean ====
section
/-! DEFINITION. The instruction set: one constructor per row of spec/opcode_table.json (`30_encoding.md` R66, R71). A constructor
carries EVERY field of its layout (R61, R62, R63), the fields the instruction ignores (R70) among them, so that a word and
its instruction hold the same bits (log 9). Field order is the word's, from the high bits down. -/

namespace Sys2Proof

inductive Instr where
  /-- R211: the all-zero word. -/
  | nop
  /-- R121 ADD -/
  | add (rs rt rd shamt : Reg)
  /-- R122 ADDU -/
  | addu (rs rt rd shamt : Reg)
  /-- R123 SUB -/
  | sub (rs rt rd shamt : Reg)
  /-- R124 SUBU -/
  | subu (rs rt rd shamt : Reg)
  /-- R125 AND -/
  | and (rs rt rd shamt : Reg)
  /-- R126 OR -/
  | or (rs rt rd shamt : Reg)
  /-- R127 XOR -/
  | xor (rs rt rd shamt : Reg)
  /-- R128 NOR -/
  | nor (rs rt rd shamt : Reg)
  /-- R129 SLT -/
  | slt (rs rt rd shamt : Reg)
  /-- R130 SLL -/
  | sll (rs rt rd shamt : Reg)
  /-- R131 SRL -/
  | srl (rs rt rd shamt : Reg)
  /-- R132 SRA -/
  | sra (rs rt rd shamt : Reg)
  /-- R133 ADDI -/
  | addi (rs rt : Reg) (imm : Half)
  /-- R134 ADDIU -/
  | addiu (rs rt : Reg) (imm : Half)
  /-- R135 SLTI -/
  | slti (rs rt : Reg) (imm : Half)
  /-- R136 ANDI -/
  | andi (rs rt : Reg) (imm : Half)
  /-- R137 ORI -/
  | ori (rs rt : Reg) (imm : Half)
  /-- R138 XORI -/
  | xori (rs rt : Reg) (imm : Half)
  /-- R139 LUI -/
  | lui (rs rt : Reg) (imm : Half)
  /-- R151 MULT -/
  | mult (rs rt rd shamt : Reg)
  /-- R152 MULTU -/
  | multu (rs rt rd shamt : Reg)
  /-- R153 DIV -/
  | div (rs rt rd shamt : Reg)
  /-- R154 DIVU -/
  | divu (rs rt rd shamt : Reg)
  /-- R155 MFHI -/
  | mfhi (rs rt rd shamt : Reg)
  /-- R156 MFLO -/
  | mflo (rs rt rd shamt : Reg)
  /-- R157 MTHI -/
  | mthi (rs rt rd shamt : Reg)
  /-- R158 MTLO -/
  | mtlo (rs rt rd shamt : Reg)
  /-- R171 BEQ -/
  | beq (rs rt : Reg) (offset : Half)
  /-- R172 BNE -/
  | bne (rs rt : Reg) (offset : Half)
  /-- R173 BLEZ -/
  | blez (rs rt : Reg) (offset : Half)
  /-- R174 BGTZ -/
  | bgtz (rs rt : Reg) (offset : Half)
  /-- R175 BLTZ -/
  | bltz (rs : Reg) (offset : Half)
  /-- R176 BGEZ -/
  | bgez (rs : Reg) (offset : Half)
  /-- R177 J -/
  | j (index : BitVec 26)
  /-- R178 JAL -/
  | jal (index : BitVec 26)
  /-- R179 JR -/
  | jr (rs rt rd shamt : Reg)
  /-- R180 JALR -/
  | jalr (rs rt rd shamt : Reg)
  /-- R191 LB -/
  | lb (rs rt : Reg) (offset : Half)
  /-- R192 LH -/
  | lh (rs rt : Reg) (offset : Half)
  /-- R193 LW -/
  | lw (rs rt : Reg) (offset : Half)
  /-- R194 SB -/
  | sb (rs rt : Reg) (offset : Half)
  /-- R195 SH -/
  | sh (rs rt : Reg) (offset : Half)
  /-- R196 SW -/
  | sw (rs rt : Reg) (offset : Half)
  /-- R210 SYSCALL; bits 25:6 are ignored -/
  | syscall (code : BitVec 20)
deriving DecidableEq, Repr

end Sys2Proof
end

