-- ==== Sys2Proof/WellFormed.lean ====
section
/-! DEFINITION. Which terms of `Instr` are instructions. Every operand is a bit field of its own width, so only one check is
needed: SLL with every field 0 has the NOP's word (`30_encoding.md` R71: the NOP "takes priority over the SLL row"). -/

namespace Sys2Proof

/-- The check, as a Bool. -/
def wellFormed : Instr → Bool
  | .sll rs rt rd shamt => !(rs == 0 && rt == 0 && rd == 0 && shamt == 0)
  | _ => true

/-- A well-formed instruction: every term but `SLL R0,R0,0` with its ignored field 0. -/
abbrev WellFormed (i : Instr) : Prop := wellFormed i = true

end Sys2Proof
end

