-- ==== Sys2Proof/Decode.lean ====
section
/-! DEFINITION. Instruction words: the fields (`30_encoding.md` R61 to R64), the total decode function (R74) over the opcode maps
(R67, R68, R69), the encoder written from the same maps, the opcode table as data, and the byte order of a word (R60, R44). -/

namespace Sys2Proof

/-- R64. -/
def opcodeField (w : Word) : BitVec 6 := w.extractLsb' 26 6
/-- R64. -/
def rsField (w : Word) : Reg := w.extractLsb' 21 5
/-- R64. -/
def rtField (w : Word) : Reg := w.extractLsb' 16 5
/-- R64. -/
def rdField (w : Word) : Reg := w.extractLsb' 11 5
/-- R64. -/
def shamtField (w : Word) : Reg := w.extractLsb' 6 5
/-- R64. -/
def functField (w : Word) : BitVec 6 := w.extractLsb' 0 6
/-- R64: `imm16`. -/
def immField (w : Word) : Half := w.extractLsb' 0 16
/-- R64: `instr_index`. -/
def indexField (w : Word) : BitVec 26 := w.extractLsb' 0 26
/-- Bits 25:6 of SYSCALL, which the core ignores (R70, R210). -/
def codeField (w : Word) : BitVec 20 := w.extractLsb' 6 20

/-- What the decoder answers for a word (R74): an instruction (the NOP among them), or UNIMP with the word it rejects. -/
inductive Decoded where
  | instr (i : Instr)
  | unimplemented (w : Word)
deriving DecidableEq, Repr

/-- R68: the SPECIAL map, selected by `funct`. The all-zero word never gets here (`decode`). -/
def decodeSpecial (w : Word) : Decoded :=
  if functField w = 0x00 then .instr (.sll (rsField w) (rtField w) (rdField w) (shamtField w)) else
  if functField w = 0x02 then .instr (.srl (rsField w) (rtField w) (rdField w) (shamtField w)) else
  if functField w = 0x03 then .instr (.sra (rsField w) (rtField w) (rdField w) (shamtField w)) else
  if functField w = 0x08 then .instr (.jr (rsField w) (rtField w) (rdField w) (shamtField w)) else
  if functField w = 0x09 then .instr (.jalr (rsField w) (rtField w) (rdField w) (shamtField w)) else
  if functField w = 0x0C then .instr (.syscall (codeField w)) else
  if functField w = 0x10 then .instr (.mfhi (rsField w) (rtField w) (rdField w) (shamtField w)) else
  if functField w = 0x11 then .instr (.mthi (rsField w) (rtField w) (rdField w) (shamtField w)) else
  if functField w = 0x12 then .instr (.mflo (rsField w) (rtField w) (rdField w) (shamtField w)) else
  if functField w = 0x13 then .instr (.mtlo (rsField w) (rtField w) (rdField w) (shamtField w)) else
  if functField w = 0x18 then .instr (.mult (rsField w) (rtField w) (rdField w) (shamtField w)) else
  if functField w = 0x19 then .instr (.multu (rsField w) (rtField w) (rdField w) (shamtField w)) else
  if functField w = 0x1A then .instr (.div (rsField w) (rtField w) (rdField w) (shamtField w)) else
  if functField w = 0x1B then .instr (.divu (rsField w) (rtField w) (rdField w) (shamtField w)) else
  if functField w = 0x20 then .instr (.add (rsField w) (rtField w) (rdField w) (shamtField w)) else
  if functField w = 0x21 then .instr (.addu (rsField w) (rtField w) (rdField w) (shamtField w)) else
  if functField w = 0x22 then .instr (.sub (rsField w) (rtField w) (rdField w) (shamtField w)) else
  if functField w = 0x23 then .instr (.subu (rsField w) (rtField w) (rdField w) (shamtField w)) else
  if functField w = 0x24 then .instr (.and (rsField w) (rtField w) (rdField w) (shamtField w)) else
  if functField w = 0x25 then .instr (.or (rsField w) (rtField w) (rdField w) (shamtField w)) else
  if functField w = 0x26 then .instr (.xor (rsField w) (rtField w) (rdField w) (shamtField w)) else
  if functField w = 0x27 then .instr (.nor (rsField w) (rtField w) (rdField w) (shamtField w)) else
  if functField w = 0x2A then .instr (.slt (rsField w) (rtField w) (rdField w) (shamtField w)) else
  .unimplemented w

/-- R69: the REGIMM map, selected by `rt`. -/
def decodeRegimm (w : Word) : Decoded :=
  if rtField w = 0 then .instr (.bltz (rsField w) (immField w)) else
  if rtField w = 1 then .instr (.bgez (rsField w) (immField w)) else
  .unimplemented w

/-- R67: the primary map, `opcode` neither SPECIAL nor REGIMM. -/
def decodePrimary (w : Word) : Decoded :=
  if opcodeField w = 0x02 then .instr (.j (indexField w)) else
  if opcodeField w = 0x03 then .instr (.jal (indexField w)) else
  if opcodeField w = 0x04 then .instr (.beq (rsField w) (rtField w) (immField w)) else
  if opcodeField w = 0x05 then .instr (.bne (rsField w) (rtField w) (immField w)) else
  if opcodeField w = 0x06 then .instr (.blez (rsField w) (rtField w) (immField w)) else
  if opcodeField w = 0x07 then .instr (.bgtz (rsField w) (rtField w) (immField w)) else
  if opcodeField w = 0x08 then .instr (.addi (rsField w) (rtField w) (immField w)) else
  if opcodeField w = 0x09 then .instr (.addiu (rsField w) (rtField w) (immField w)) else
  if opcodeField w = 0x0A then .instr (.slti (rsField w) (rtField w) (immField w)) else
  if opcodeField w = 0x0C then .instr (.andi (rsField w) (rtField w) (immField w)) else
  if opcodeField w = 0x0D then .instr (.ori (rsField w) (rtField w) (immField w)) else
  if opcodeField w = 0x0E then .instr (.xori (rsField w) (rtField w) (immField w)) else
  if opcodeField w = 0x0F then .instr (.lui (rsField w) (rtField w) (immField w)) else
  if opcodeField w = 0x20 then .instr (.lb (rsField w) (rtField w) (immField w)) else
  if opcodeField w = 0x21 then .instr (.lh (rsField w) (rtField w) (immField w)) else
  if opcodeField w = 0x23 then .instr (.lw (rsField w) (rtField w) (immField w)) else
  if opcodeField w = 0x28 then .instr (.sb (rsField w) (rtField w) (immField w)) else
  if opcodeField w = 0x29 then .instr (.sh (rsField w) (rtField w) (immField w)) else
  if opcodeField w = 0x2B then .instr (.sw (rsField w) (rtField w) (immField w)) else
  .unimplemented w

/-- R74: the decode function, total on the 2^32 words. The all-zero word is the NOP before it is an SLL (R71). -/
def decode (w : Word) : Decoded :=
  if w = 0 then .instr .nop
  else if opcodeField w = 0 then decodeSpecial w
  else if opcodeField w = 1 then decodeRegimm w
  else decodePrimary w

/-! ### The encoder -/

/-- R61: the R-type layout, opcode SPECIAL. -/
def encodeR (rs rt rd shamt : Reg) (funct : BitVec 6) : Word := 0#6 ++ rs ++ rt ++ rd ++ shamt ++ funct
/-- R62: the I-type layout. -/
def encodeI (opcode : BitVec 6) (rs rt : Reg) (imm : Half) : Word := opcode ++ rs ++ rt ++ imm
/-- R63: the J-type layout. -/
def encodeJ (opcode : BitVec 6) (index : BitVec 26) : Word := opcode ++ index

/-- The word of an instruction, from the opcode numbers of R67, R68 and R69. -/
def encode : Instr → Word
  | .nop => 0
  | .sll rs rt rd shamt => encodeR rs rt rd shamt 0x00
  | .srl rs rt rd shamt => encodeR rs rt rd shamt 0x02
  | .sra rs rt rd shamt => encodeR rs rt rd shamt 0x03
  | .jr rs rt rd shamt => encodeR rs rt rd shamt 0x08
  | .jalr rs rt rd shamt => encodeR rs rt rd shamt 0x09
  | .syscall code => 0#6 ++ code ++ 0x0C#6
  | .mfhi rs rt rd shamt => encodeR rs rt rd shamt 0x10
  | .mthi rs rt rd shamt => encodeR rs rt rd shamt 0x11
  | .mflo rs rt rd shamt => encodeR rs rt rd shamt 0x12
  | .mtlo rs rt rd shamt => encodeR rs rt rd shamt 0x13
  | .mult rs rt rd shamt => encodeR rs rt rd shamt 0x18
  | .multu rs rt rd shamt => encodeR rs rt rd shamt 0x19
  | .div rs rt rd shamt => encodeR rs rt rd shamt 0x1A
  | .divu rs rt rd shamt => encodeR rs rt rd shamt 0x1B
  | .add rs rt rd shamt => encodeR rs rt rd shamt 0x20
  | .addu rs rt rd shamt => encodeR rs rt rd shamt 0x21
  | .sub rs rt rd shamt => encodeR rs rt rd shamt 0x22
  | .subu rs rt rd shamt => encodeR rs rt rd shamt 0x23
  | .and rs rt rd shamt => encodeR rs rt rd shamt 0x24
  | .or rs rt rd shamt => encodeR rs rt rd shamt 0x25
  | .xor rs rt rd shamt => encodeR rs rt rd shamt 0x26
  | .nor rs rt rd shamt => encodeR rs rt rd shamt 0x27
  | .slt rs rt rd shamt => encodeR rs rt rd shamt 0x2A
  | .bltz rs offset => encodeI 0x01 rs 0 offset
  | .bgez rs offset => encodeI 0x01 rs 1 offset
  | .j index => encodeJ 0x02 index
  | .jal index => encodeJ 0x03 index
  | .beq rs rt imm => encodeI 0x04 rs rt imm
  | .bne rs rt imm => encodeI 0x05 rs rt imm
  | .blez rs rt imm => encodeI 0x06 rs rt imm
  | .bgtz rs rt imm => encodeI 0x07 rs rt imm
  | .addi rs rt imm => encodeI 0x08 rs rt imm
  | .addiu rs rt imm => encodeI 0x09 rs rt imm
  | .slti rs rt imm => encodeI 0x0A rs rt imm
  | .andi rs rt imm => encodeI 0x0C rs rt imm
  | .ori rs rt imm => encodeI 0x0D rs rt imm
  | .xori rs rt imm => encodeI 0x0E rs rt imm
  | .lui rs rt imm => encodeI 0x0F rs rt imm
  | .lb rs rt imm => encodeI 0x20 rs rt imm
  | .lh rs rt imm => encodeI 0x21 rs rt imm
  | .lw rs rt imm => encodeI 0x23 rs rt imm
  | .sb rs rt imm => encodeI 0x28 rs rt imm
  | .sh rs rt imm => encodeI 0x29 rs rt imm
  | .sw rs rt imm => encodeI 0x2B rs rt imm

/-! ### The opcode table (spec/opcode_table.json) -/

/-- The mnemonic of an instruction, as the opcode table spells it. -/
def mnemonic : Instr → String
  | .nop => "NOP"
  | .add _ _ _ _ => "ADD"
  | .addu _ _ _ _ => "ADDU"
  | .sub _ _ _ _ => "SUB"
  | .subu _ _ _ _ => "SUBU"
  | .and _ _ _ _ => "AND"
  | .or _ _ _ _ => "OR"
  | .xor _ _ _ _ => "XOR"
  | .nor _ _ _ _ => "NOR"
  | .slt _ _ _ _ => "SLT"
  | .sll _ _ _ _ => "SLL"
  | .srl _ _ _ _ => "SRL"
  | .sra _ _ _ _ => "SRA"
  | .addi _ _ _ => "ADDI"
  | .addiu _ _ _ => "ADDIU"
  | .slti _ _ _ => "SLTI"
  | .andi _ _ _ => "ANDI"
  | .ori _ _ _ => "ORI"
  | .xori _ _ _ => "XORI"
  | .lui _ _ _ => "LUI"
  | .mult _ _ _ _ => "MULT"
  | .multu _ _ _ _ => "MULTU"
  | .div _ _ _ _ => "DIV"
  | .divu _ _ _ _ => "DIVU"
  | .mfhi _ _ _ _ => "MFHI"
  | .mflo _ _ _ _ => "MFLO"
  | .mthi _ _ _ _ => "MTHI"
  | .mtlo _ _ _ _ => "MTLO"
  | .beq _ _ _ => "BEQ"
  | .bne _ _ _ => "BNE"
  | .blez _ _ _ => "BLEZ"
  | .bgtz _ _ _ => "BGTZ"
  | .bltz _ _ => "BLTZ"
  | .bgez _ _ => "BGEZ"
  | .j _ => "J"
  | .jal _ => "JAL"
  | .jr _ _ _ _ => "JR"
  | .jalr _ _ _ _ => "JALR"
  | .lb _ _ _ => "LB"
  | .lh _ _ _ => "LH"
  | .lw _ _ _ => "LW"
  | .sb _ _ _ => "SB"
  | .sh _ _ _ => "SH"
  | .sw _ _ _ => "SW"
  | .syscall _ => "SYSCALL"

/-- The rows of the opcode table in its order, each (mnemonic, match, mask); the first row a word matches wins (R71, R74). -/
def opcodeTable : List (String × Word × Word) :=
  [("NOP", 0x00000000, 0xFFFFFFFF),
   ("ADD", 0x00000020, 0xFC00003F),
   ("ADDU", 0x00000021, 0xFC00003F),
   ("SUB", 0x00000022, 0xFC00003F),
   ("SUBU", 0x00000023, 0xFC00003F),
   ("AND", 0x00000024, 0xFC00003F),
   ("OR", 0x00000025, 0xFC00003F),
   ("XOR", 0x00000026, 0xFC00003F),
   ("NOR", 0x00000027, 0xFC00003F)] ++
  [("SLT", 0x0000002A, 0xFC00003F),
   ("SLL", 0x00000000, 0xFC00003F),
   ("SRL", 0x00000002, 0xFC00003F),
   ("SRA", 0x00000003, 0xFC00003F),
   ("ADDI", 0x20000000, 0xFC000000),
   ("ADDIU", 0x24000000, 0xFC000000),
   ("SLTI", 0x28000000, 0xFC000000),
   ("ANDI", 0x30000000, 0xFC000000),
   ("ORI", 0x34000000, 0xFC000000)] ++
  [("XORI", 0x38000000, 0xFC000000),
   ("LUI", 0x3C000000, 0xFC000000),
   ("MULT", 0x00000018, 0xFC00003F),
   ("MULTU", 0x00000019, 0xFC00003F),
   ("DIV", 0x0000001A, 0xFC00003F),
   ("DIVU", 0x0000001B, 0xFC00003F),
   ("MFHI", 0x00000010, 0xFC00003F),
   ("MFLO", 0x00000012, 0xFC00003F),
   ("MTHI", 0x00000011, 0xFC00003F)] ++
  [("MTLO", 0x00000013, 0xFC00003F),
   ("BEQ", 0x10000000, 0xFC000000),
   ("BNE", 0x14000000, 0xFC000000),
   ("BLEZ", 0x18000000, 0xFC000000),
   ("BGTZ", 0x1C000000, 0xFC000000),
   ("BLTZ", 0x04000000, 0xFC1F0000),
   ("BGEZ", 0x04010000, 0xFC1F0000),
   ("J", 0x08000000, 0xFC000000),
   ("JAL", 0x0C000000, 0xFC000000)] ++
  [("JR", 0x00000008, 0xFC00003F),
   ("JALR", 0x00000009, 0xFC00003F),
   ("LB", 0x80000000, 0xFC000000),
   ("LH", 0x84000000, 0xFC000000),
   ("LW", 0x8C000000, 0xFC000000),
   ("SB", 0xA0000000, 0xFC000000),
   ("SH", 0xA4000000, 0xFC000000),
   ("SW", 0xAC000000, 0xFC000000),
   ("SYSCALL", 0x0000000C, 0xFC00003F)]

/-- The mnemonic of the first row of the opcode table that a word matches, if any. -/
def tableLookup (w : Word) : Option String :=
  (opcodeTable.find? (fun row => w &&& row.2.2 == row.2.1)).map (fun row => row.1)

/-! ### Bytes of a word -/

/-- R44, R60: the word whose byte at the lowest address is `b0`. -/
def wordOfBytes (b0 b1 b2 b3 : Byte) : Word := b3 ++ b2 ++ b1 ++ b0

/-- Byte `i` of a word, counted from the least significant: the byte stored `i` above the word's address (R43, R44). -/
def byteOfWord (w : Word) (i : Nat) : Byte := w.extractLsb' (8 * i) 8

/-- Decoding a stream of bytes: four bytes make one instruction, the rest is handed back; fewer than four make none. -/
def decodeBytes : List Byte → Option (Decoded × List Byte)
  | b0 :: b1 :: b2 :: b3 :: rest => some (decode (wordOfBytes b0 b1 b2 b3), rest)
  | _ => none

/-- The bytes of an instruction word in memory order. -/
def bytesOfWord (w : Word) : List Byte := [byteOfWord w 0, byteOfWord w 1, byteOfWord w 2, byteOfWord w 3]

/-- The word whose low `nbits` bits are those of `w`, the bits above them 0. -/
def tableWord (nbits w : Nat) : Word := BitVec.ofNat 32 (w % 2 ^ nbits)

/-- The host's question: the instruction the decoder reads from the bytes of an opcode-table word. -/
def decodeTableWord (nbits w : Nat) : Option Instr :=
  match decodeBytes (bytesOfWord (tableWord nbits w)) with
  | some (.instr i, _) => some i
  | _ => none

end Sys2Proof
end

