-- ==== Sys2Proof/Config.lean ====
section
/-! DEFINITION. The open parameters of the hardware (`00_scope.md` R7), which "the model takes as arguments". A state carries
one `Params` (Machine/State.lean), so a statement about every state is a statement about every choice of them; the
recommended values are in Machine/Parameters.lean. -/

namespace Sys2Proof.Config

/-- The inclusive byte-address bounds of one memory region (R41). -/
structure Region where
  base : Word
  last : Word
deriving DecidableEq, Repr

/-- R7: the eight region bounds, `IMAGE`, `FORWARDING_RESET` and `DIV_OVERFLOW_RESULT`. Log 1 to log 4. -/
structure Params where
  text : Region
  data : Region
  ktext : Region
  kdata : Region
  /-- `IMAGE`: the bytes the loader delivers at reset (R246), in the order it writes them. -/
  image : List (Nat × Byte)
  forwardingReset : Bool
  divOverflowLo : Word
  divOverflowHi : Word
deriving DecidableEq, Repr

end Sys2Proof.Config
end

