-- ==== Sys2Proof/Machine/Parameters.lean ====
section
/-! DEFINITION. The recommended values of the open parameters (`00_scope.md` R7, `20_memory.md` R49), which State.reset takes. -/

namespace Sys2Proof.Machine

/-- R7, R49: the recommended default map (log 1), an empty image (log 2), `FORWARDING_RESET = false` (log 3, D21) and
`DIV_OVERFLOW_RESULT = (LO 0x80000000, HI 0)` (log 4, D17). DESIGN CHOICE, unsafe: the spec leaves the map open. -/
def recommendedParams : Config.Params where
  text := ⟨0x00400000, 0x0FFFFFFF⟩
  data := ⟨0x10010000, 0x7FFFFFFF⟩
  ktext := ⟨0x80000000, 0x8FFFFFFF⟩
  kdata := ⟨0x90000000, 0xFFFEFFFF⟩
  image := []
  forwardingReset := false
  divOverflowLo := 0x80000000
  divOverflowHi := 0

end Sys2Proof.Machine
end

