-- ==== Sys2Proof/Machine/State.lean ====
section
/-! DEFINITION. The state of the core (`10_state.md`): the architectural state twice, the four latches, the control state and the
memory image, as plain data; the reasons a step can stop; the machine right after power-on. -/

namespace Sys2Proof.Machine

/-- A fault. R220: "The core raises no synchronous exception of any kind"; every word, operand and address has a defined,
non-trapping outcome (R221). So no constructor: nothing raises one, which is safe. -/
inductive Fault where
deriving DecidableEq, Repr

/-- A refusal. -/
inductive Refusal where
  /-- Raised by an arm of `exec` whose instruction has no meaning yet; safe. No arm raises it. -/
  | notModelled (mnemonic : String)
deriving DecidableEq, Repr

/-- R10: the architectural state. Register 0 is an ordinary register (R12). -/
structure Arch where
  pc : Word
  x : Vector Word 32
  hi : Word
  lo : Word
deriving DecidableEq, Repr

/-- R21: the record held by each of the four pipeline latches. -/
structure Latch where
  ir : Word
  pc : Word
  registerRs : Reg
  registerRt : Reg
  registerRd : Reg
  a : Word
  b : Word
  storeData : Word
  imm : Word
  shamt : Reg
  target : BitVec 26
  aluOutput : Word
  lmd : Word
  regWrite : Bool
deriving DecidableEq, Repr

/-- R21: `CLEAR`, the latch with every field 0; R22: a bubble. -/
def Latch.clear : Latch :=
  { ir := 0, pc := 0, registerRs := 0, registerRt := 0, registerRd := 0, a := 0, b := 0, storeData := 0, imm := 0,
    shamt := 0, target := 0, aluOutput := 0, lmd := 0, regWrite := false }

/-- The memory image (R26): the bytes that are not zero, by address, addresses strictly rising (`Memory.wf`). What an unlisted
address reads as is zero: R240, "every byte of all four memory regions is set to 0". -/
abbrev Memory := List Host.Cell

/-- The four stage units that look at an instruction (R80), in the order they run in a cycle; Fetch comes after them. -/
inductive Stage where
  | writeback
  | memory
  | execute
  | decode
deriving DecidableEq, Repr

/-- Everything the spec gives the machine, and two fields of the model's own: `params`, the open parameters of R7 (log 1 to
log 4), which no step changes, and `stage`, the stage unit that is running (log 6). -/
structure State where
  /-- R10: the committed copy. -/
  cur : Arch
  /-- R10: the copy being written; equal to `cur` at every cycle boundary (R27). -/
  nxt : Arch
  ifId : Latch
  idEx : Latch
  exMem : Latch
  memWb : Latch
  /-- R17. -/
  halted : Bool
  /-- R18. -/
  branchPending : Bool
  /-- R18; it means something only between Execute and Fetch of one cycle (log 10). -/
  branchTarget : Word
  /-- R19: `stall_cycles_remaining`, 0, 1 or 2 (R27). -/
  stall : Nat
  /-- R20: `forwarding_enabled`. -/
  forwarding : Bool
  /-- R24. -/
  cycleCount : Nat
  /-- R25. -/
  unimplementedSeen : Bool
  /-- R26. -/
  mem : Memory
  params : Config.Params
  stage : Stage
deriving DecidableEq, Repr

/-- R28: the architectural state at reset. -/
def Arch.reset (p : Config.Params) : Arch :=
  { pc := p.text.base, x := Vector.replicate 32 0, hi := 0, lo := 0 }

/-- R28: every field but memory and `forwarding_enabled` at its reset value. -/
def State.resetWith (p : Config.Params) (forwarding : Bool) (mem : Memory) : State :=
  { cur := Arch.reset p, nxt := Arch.reset p,
    ifId := Latch.clear, idEx := Latch.clear, exMem := Latch.clear, memWb := Latch.clear,
    halted := false, branchPending := false, branchTarget := 0, stall := 0,
    forwarding := forwarding, cycleCount := 0, unimplementedSeen := false,
    mem := mem, params := p, stage := .writeback }

/-- R28, R240: the machine right after power-on with the recommended parameters; their image is empty, so memory lists
nothing (log 2). -/
def State.reset : State :=
  State.resetWith recommendedParams recommendedParams.forwardingReset []

/-- What a stage unit answers. -/
abbrev Result := Host.Outcome State Fault Refusal

end Sys2Proof.Machine
end

