-- ==== Sys2Proof/Machine/Ops.lean ====
section
/-! DEFINITION. The named operations over registers, memory, latches and the control state. There is no operation "take an
exception": the core has no exception, no exception entry and no return from one (`60_exceptions.md` R220, R224, R225); the
nearest thing is `State.halt` (R224). -/

namespace Sys2Proof.Machine

/-! ### Registers -/

/-- R11: the value of general register `r` of a register file; register 0 like any other (R12). -/
def readReg (x : Vector Word 32) (r : Reg) : Word := x[r.toNat]'r.isLt

/-- R11: the register file with general register `r` holding `v`. -/
def writeReg (x : Vector Word 32) (r : Reg) (v : Word) : Vector Word 32 := x.set r.toNat v r.isLt

/-! ### Memory (`20_memory.md`) -/

/-- The four regions (R41). -/
inductive RegionName where
  | text | data | ktext | kdata
deriving DecidableEq, Repr

/-- R41: `BASE <= a <= END`. -/
def inRegion (r : Config.Region) (a : Word) : Bool := r.base.toNat ≤ a.toNat && a.toNat ≤ r.last.toNat

/-- R41: `Region(a)`, or none. -/
def regionOf (p : Config.Params) (a : Word) : Option RegionName :=
  if inRegion p.text a then some .text
  else if inRegion p.data a then some .data
  else if inRegion p.ktext a then some .ktext
  else if inRegion p.kdata a then some .kdata
  else none

/-- What an address that is not listed reads as (R240, R246: "bytes the loader did not write are zero"). -/
def unlistedByte : Byte := 0

/-- The byte stored for an address. -/
def Memory.read : Memory → Nat → Byte
  | [], _ => unlistedByte
  | (k, c) :: rest, a => if k = a then c else Memory.read rest a

/-- Storing a byte; the canonical form is kept: storing the byte an unlisted address reads as removes the entry. -/
def Memory.write : Memory → Nat → Byte → Memory
  | [], a, b => if b = unlistedByte then [] else [(a, b)]
  | (k, c) :: rest, a, b =>
    if a < k then (if b = unlistedByte then (k, c) :: rest else (a, b) :: (k, c) :: rest)
    else if a = k then (if b = unlistedByte then rest else (a, b) :: rest)
    else (k, c) :: Memory.write rest a b

/-- Addresses strictly rising from `lo` on, and no entry equal to what an unlisted address reads as. -/
def Memory.wfFrom (lo : Nat) : Memory → Bool
  | [] => true
  | (k, c) :: rest => lo ≤ k && c != unlistedByte && Memory.wfFrom (k + 1) rest

/-- The canonical form of a memory image. -/
def Memory.wf (m : Memory) : Bool := Memory.wfFrom 0 m

/-- R46: `ByteRead`. -/
def byteRead (p : Config.Params) (m : Memory) (a : Word) : Byte :=
  match regionOf p a with
  | none => 0
  | some _ => m.read a.toNat

/-- R46: `ByteWrite`. -/
def byteWrite (p : Config.Params) (m : Memory) (a : Word) (b : Byte) : Memory :=
  match regionOf p a with
  | none => m
  | some _ => m.write a.toNat b

/-- R42: `MemRead(addr, 1)`. -/
def memRead8 (p : Config.Params) (m : Memory) (addr : Word) : Byte := byteRead p m addr

/-- R42: `MemRead(addr, 2)`, the lowest address least significant (R44); addresses wrap (R47). -/
def memRead16 (p : Config.Params) (m : Memory) (addr : Word) : Half :=
  byteRead p m (addr + 1) ++ byteRead p m addr

/-- R42: `MemRead(addr, 4)`. -/
def memRead32 (p : Config.Params) (m : Memory) (addr : Word) : Word :=
  wordOfBytes (byteRead p m addr) (byteRead p m (addr + 1)) (byteRead p m (addr + 2)) (byteRead p m (addr + 3))

/-- R43: `MemWrite(addr, n, v)`: the byte writes `i = 0 .. n-1` in order, byte `i` of `v` to `(addr + i) mod 2^32`. -/
def memWrite (p : Config.Params) (m : Memory) (addr : Word) (n : Nat) (v : Word) : Memory :=
  (List.range n).foldl (fun m' i => byteWrite p m' (addr + BitVec.ofNat 32 i) (byteOfWord v i)) m

/-- R240, R246: the memory after the loader has written its image over zeroed regions. -/
def loadImage (p : Config.Params) : Memory :=
  p.image.foldl (fun m cell => byteWrite p m (BitVec.ofNat 32 cell.1) cell.2) []

/-! ### Updates of the state, one per piece of state a stage unit writes (R30) -/

/-- The stage unit `g` runs. -/
def State.at (s : State) (g : Stage) : State := { s with stage := g }
def State.setIfId (s : State) (l : Latch) : State := { s with ifId := l }
def State.setIdEx (s : State) (l : Latch) : State := { s with idEx := l }
def State.setExMem (s : State) (l : Latch) : State := { s with exMem := l }
def State.setMemWb (s : State) (l : Latch) : State := { s with memWb := l }
/-- `nxt.x[r] <- v` (R83). -/
def State.setNxtReg (s : State) (r : Reg) (v : Word) : State := { s with nxt := { s.nxt with x := writeReg s.nxt.x r v } }
/-- `nxt.hi <- v` (R15). -/
def State.setNxtHi (s : State) (v : Word) : State := { s with nxt := { s.nxt with hi := v } }
/-- `nxt.lo <- v` (R15). -/
def State.setNxtLo (s : State) (v : Word) : State := { s with nxt := { s.nxt with lo := v } }
/-- `nxt.pc <- v` (R14). -/
def State.setNxtPc (s : State) (v : Word) : State := { s with nxt := { s.nxt with pc := v } }
/-- `halted <- 1` (R17). -/
def State.halt (s : State) : State := { s with halted := true }
/-- `branch_pending <- 1` with `branch_target <- t` (R18). -/
def State.raiseBranch (s : State) (t : Word) : State := { s with branchPending := true, branchTarget := t }
/-- `branch_pending <- 0` (R98). -/
def State.clearBranch (s : State) : State := { s with branchPending := false }
def State.setStall (s : State) (n : Nat) : State := { s with stall := n }
/-- `unimplemented_seen <- 1` (R25). -/
def State.noteUnimplemented (s : State) : State := { s with unimplementedSeen := true }
def State.setMem (s : State) (m : Memory) : State := { s with mem := m }
/-- R81: the commit, after which the next cycle starts with Writeback. -/
def State.commit (s : State) : State :=
  { s with cur := s.nxt, cycleCount := s.cycleCount + 1, stage := .writeback }

/-! ### What the stage units do, shared by the instructions -/

/-- An instruction's contribution to each of the four stage units, run in the one `s.stage` names. -/
def byStage (decodeAct executeAct memoryAct writebackAct : State → State) (s : State) : Result :=
  match s.stage with
  | .decode => .next (decodeAct s)
  | .execute => .next (executeAct s)
  | .memory => .next (memoryAct s)
  | .writeback => .next (writebackAct s)

/-- R85 with an empty Execute action: the latch is copied. -/
def executePass (s : State) : State := s.setExMem s.idEx

/-- R85 with `ALUOutput <- v` as the Execute action. -/
def executeResult (v : Word) (s : State) : State := s.setExMem { s.idEx with aluOutput := v }

/-- R84 for an instruction that makes no memory access: the latch is copied. -/
def memoryPass (s : State) : State := s.setMemWb s.exMem

/-- R84 for a load: `LMD <- v`. -/
def memoryLoad (v : Word) (s : State) : State := s.setMemWb { s.exMem with lmd := v }

/-- R84 for a store of `n` bytes: `MemWrite(ALUOutput, n, StoreData)`. -/
def memoryStore (n : Nat) (s : State) : State :=
  (s.setMem (memWrite s.params s.mem s.exMem.aluOutput n s.exMem.storeData)).setMemWb s.exMem

/-- R83, last two branches: `ALUOutput` into the destination register if `RegWrite`, else nothing (log 8). -/
def writebackResult (s : State) : State :=
  if s.memWb.regWrite then s.setNxtReg s.memWb.registerRd s.memWb.aluOutput else s

/-- R83 for LB, LH, LW: `LMD` into the destination register if `RegWrite`. -/
def writebackLoad (s : State) : State :=
  if s.memWb.regWrite then s.setNxtReg s.memWb.registerRd s.memWb.lmd else s

/-! ### The instruction fetch -/

/-- R60, R50: the instruction word at an address. -/
def fetchWord (s : State) (a : Word) : Word := memRead32 s.params s.mem a

/-- R98 to R100: the Fetch unit. -/
def fetchUnit (s : State) : State :=
  if s.branchPending then (((s.setNxtPc s.branchTarget).setIfId Latch.clear).clearBranch).setStall 0
  else if s.stall > 0 then s.setStall (s.stall - 1)
  else (s.setIfId { Latch.clear with ir := fetchWord s s.cur.pc, pc := s.cur.pc }).setNxtPc (s.cur.pc + 4)

end Sys2Proof.Machine
end

