-- ==== Sys2Proof/Machine/Operands.lean ====
section
/-! DEFINITION. What Decode does with an instruction's operands: immediates (`30_encoding.md` R65), read sets and destinations
(R75), the hazard and forwarding controller (`40_pipeline.md` R91 to R97). -/

namespace Sys2Proof.Machine

/-! ### The columns of R75 -/

/-- R75, column `reads`: the general registers Decode reads and checks for hazards. -/
def sourcesOf : Instr → List Reg
  | .nop | .lui _ _ _ | .mfhi _ _ _ _ | .mflo _ _ _ _ | .j _ | .jal _ | .syscall _ => []
  | .add rs rt _ _ | .addu rs rt _ _ | .sub rs rt _ _ | .subu rs rt _ _ | .and rs rt _ _ | .or rs rt _ _
  | .xor rs rt _ _ | .nor rs rt _ _ | .slt rs rt _ _
  | .mult rs rt _ _ | .multu rs rt _ _ | .div rs rt _ _ | .divu rs rt _ _
  | .beq rs rt _ | .bne rs rt _ | .sb rs rt _ | .sh rs rt _ | .sw rs rt _ => [rs, rt]
  | .sll _ rt _ _ | .srl _ rt _ _ | .sra _ rt _ _ => [rt]
  | .addi rs _ _ | .addiu rs _ _ | .slti rs _ _ | .andi rs _ _ | .ori rs _ _ | .xori rs _ _
  | .mthi rs _ _ _ | .mtlo rs _ _ _ | .blez rs _ _ | .bgtz rs _ _ | .bltz rs _ | .bgez rs _
  | .jr rs _ _ _ | .jalr rs _ _ _ | .lb rs _ _ | .lh rs _ _ | .lw rs _ _ => [rs]

/-- R75, column `dest`: the destination register, if the instruction defines one. -/
def destOf : Instr → Option Reg
  | .add _ _ rd _ | .addu _ _ rd _ | .sub _ _ rd _ | .subu _ _ rd _ | .and _ _ rd _ | .or _ _ rd _
  | .xor _ _ rd _ | .nor _ _ rd _ | .slt _ _ rd _ | .sll _ _ rd _ | .srl _ _ rd _ | .sra _ _ rd _
  | .mfhi _ _ rd _ | .mflo _ _ rd _ | .jalr _ _ rd _ => some rd
  | .addi _ rt _ | .addiu _ rt _ | .slti _ rt _ | .andi _ rt _ | .ori _ rt _ | .xori _ rt _ | .lui _ rt _
  | .lb _ rt _ | .lh _ rt _ | .lw _ rt _ => some rt
  | .jal _ => some 31
  | .nop | .mult _ _ _ _ | .multu _ _ _ _ | .div _ _ _ _ | .divu _ _ _ _ | .mthi _ _ _ _ | .mtlo _ _ _ _
  | .beq _ _ _ | .bne _ _ _ | .blez _ _ _ | .bgtz _ _ _ | .bltz _ _ | .bgez _ _ | .j _ | .jr _ _ _ _
  | .sb _ _ _ | .sh _ _ _ | .sw _ _ _ | .syscall _ => none

/-- LB, LH or LW: its result is `LMD` and is not ready before its Memory stage (R93, R95). -/
def isLoad : Instr → Bool
  | .lb _ _ _ | .lh _ _ _ | .lw _ _ _ => true
  | _ => false

/-- `decode(w) in {LB, LH, LW}` (R83, R93). -/
def isLoadWord (w : Word) : Bool :=
  match decode w with
  | .instr i => isLoad i
  | .unimplemented _ => false

/-! ### Immediates (R65) -/

/-- ADDI, ADDIU, SLTI, loads, stores, branches, and every word that does not use the field. -/
def signImm (imm : Half) : Word := imm.signExtend 32

/-- ANDI, ORI, XORI, LUI. -/
def zeroImm (imm : Half) : Word := imm.zeroExtend 32

/-! ### Hazards and forwarding -/

/-- R93: the outcomes of the hazard check of one source operand. -/
inductive Hazard where
  | none
  | stall (cycles : Nat)
  | fwdExMem
  | fwdMemWb
deriving DecidableEq, Repr

/-- R93, with `EX_MEM` and `MEM_WB` as Execute and Memory wrote them earlier in the same cycle. -/
def hazard (s : State) (r : Reg) : Hazard :=
  if s.exMem.regWrite && s.exMem.registerRd == r then
    if !s.forwarding then .stall 2 else if isLoadWord s.exMem.ir then .stall 1 else .fwdExMem
  else if s.memWb.regWrite && s.memWb.registerRd == r then
    if !s.forwarding then .stall 1 else .fwdMemWb
  else .none

/-- The stall cycles one operand demands (R96). -/
def stallOf (s : State) : Option Reg → Nat
  | none => 0
  | some r =>
    match hazard s r with
    | .stall n => n
    | _ => 0

/-- R95: what is forwarded from the instruction in `MEM_WB`. -/
def memWbValue (s : State) : Word := if isLoadWord s.memWb.ir then s.memWb.lmd else s.memWb.aluOutput

/-- R97: `val(r)` of a source that does not stall; `RF(r)` is `nxt.x[r]`, which Writeback has already written (R92). -/
def operandValue (s : State) (r : Reg) : Word :=
  match hazard s r with
  | .fwdExMem => s.exMem.aluOutput
  | .fwdMemWb => memWbValue s
  | _ => readReg s.nxt.x r

/-- `val` of an operand field; a field the instruction does not read stays 0 (R91). -/
def operandField (s : State) : Option Reg → Word
  | none => 0
  | some r => operandValue s r

/-- What an instruction asks of Decode: which register goes to `A`, `B` and `StoreData`, the destination (R75), and the
`imm`, `shamt` and `target` fields of the latch (R64, R65). -/
structure Issue where
  a : Option Reg
  b : Option Reg
  storeData : Option Reg
  dest : Option Reg
  imm : Word
  shamt : Reg
  target : BitVec 26
deriving DecidableEq, Repr

/-- R64, R65 (row "all others"), R89: the latch fields Decode fills whether or not the instruction uses them. -/
def plainIssue (w : Word) : Issue :=
  { a := none, b := none, storeData := none, dest := none,
    imm := signImm (immField w), shamt := shamtField w, target := indexField w }

/-- R96: the stall the instruction must wait out, the largest its sources demand. -/
def stallNeeded (q : Issue) (s : State) : Nat :=
  max (stallOf s q.a) (max (stallOf s q.b) (stallOf s q.storeData))

/-- R89, R90, R97: the latch Decode issues. -/
def issuedLatch (q : Issue) (s : State) : Latch :=
  { Latch.clear with
    ir := s.ifId.ir, pc := s.ifId.pc,
    registerRs := rsField s.ifId.ir, registerRt := rtField s.ifId.ir, registerRd := q.dest.getD 0,
    a := operandField s q.a, b := operandField s q.b, storeData := operandField s q.storeData,
    imm := q.imm, shamt := q.shamt, target := q.target, regWrite := q.dest.isSome }

/-- R96, R97: Decode stalls, with a bubble into `ID_EX`, or issues. -/
def issue (q : Issue) (s : State) : State :=
  if stallNeeded q s > 0 then (s.setStall (stallNeeded q s)).setIdEx Latch.clear
  else s.setIdEx (issuedLatch q s)

/-- Decode of an instruction that reads `rs` into `A` and `rt` into `B` and may write `dest` (R75). -/
def issueRegs (rs rt : Reg) (dest : Option Reg) (s : State) : State :=
  issue { plainIssue s.ifId.ir with a := some rs, b := some rt, dest := dest } s

/-- Decode of an instruction that reads `rs` into `A` and has the extended immediate `imm` (R75, R65). -/
def issueImm (rs : Reg) (dest : Option Reg) (imm : Word) (s : State) : State :=
  issue { plainIssue s.ifId.ir with a := some rs, dest := dest, imm := imm } s

/-- Decode of an instruction that reads nothing and may write `dest` (R75). -/
def issueNone (dest : Option Reg) (s : State) : State :=
  issue { plainIssue s.ifId.ir with dest := dest } s

end Sys2Proof.Machine
end

