-- ==== Sys2Proof/Machine/Flags.lean ====
section
/-! DEFINITION. The hardware has no flags and no condition codes (`10_state.md` R16). What takes their place: the 0/1 word of a
compare (R129) and the conditions of the branches (R171 to R176), all with signed interpretation. -/

namespace Sys2Proof.Machine

/-- R129: "compare produces 0/1" as a full 32-bit word, signed. -/
def compareWord (a b : Word) : Word := if a.toInt < b.toInt then 1 else 0

/-- R171. -/
def condEq (a b : Word) : Bool := a == b
/-- R172. -/
def condNe (a b : Word) : Bool := a != b
/-- R173. -/
def condLez (a : Word) : Bool := a.toInt ≤ 0
/-- R174. -/
def condGtz (a : Word) : Bool := 0 < a.toInt
/-- R175. -/
def condLtz (a : Word) : Bool := a.toInt < 0
/-- R176. -/
def condGez (a : Word) : Bool := 0 ≤ a.toInt

end Sys2Proof.Machine
end

