-- ==== Sys2Proof/Machine/Alu.lean ====
section
/-! DEFINITION. The ALU-class instructions (`41_alu.md`). R120: Decode reads the sources and sets the destination, Execute fills
`ALUOutput`, Memory passes the latch on, Writeback writes the destination; no flags, no exception, no overflow trap. -/

namespace Sys2Proof.Machine

/-- R120, section 2 of `41_alu.md`: `OP Rd,Rs,Rt` with Execute function `f A B`. -/
def aluRegister (rs rt rd : Reg) (f : Word → Word → Word) (s : State) : Result :=
  byStage (issueRegs rs rt (some rd)) (executeResult (f s.idEx.a s.idEx.b)) memoryPass writebackResult s

/-- R120, section 3 of `41_alu.md`: `OP Rd,Rt,shamt` with Execute function `f B shamt`; `rs` is not read. -/
def aluShift (rt rd shamt : Reg) (f : Word → Nat → Word) (s : State) : Result :=
  byStage (issue { plainIssue s.ifId.ir with b := some rt, dest := some rd, shamt := shamt })
    (executeResult (f s.idEx.b s.idEx.shamt.toNat)) memoryPass writebackResult s

/-- R120, section 4 of `41_alu.md`: `OP Rt,Rs,imm` with the extended immediate `imm` and Execute function `f A imm`. -/
def aluImmediate (rs rt : Reg) (imm : Word) (f : Word → Word → Word) (s : State) : Result :=
  byStage (issueImm rs (some rt) imm) (executeResult (f s.idEx.a s.idEx.imm)) memoryPass writebackResult s

/-! ### The Execute functions -/

/-- R121, R122, R133, R134: modulo 2^32. -/
def addWords (a b : Word) : Word := a + b
/-- R123, R124: modulo 2^32. -/
def subWords (a b : Word) : Word := a - b
/-- R125, R136. -/
def andWords (a b : Word) : Word := a &&& b
/-- R126, R137. -/
def orWords (a b : Word) : Word := a ||| b
/-- R127, R138. -/
def xorWords (a b : Word) : Word := a ^^^ b
/-- R128: all 32 bits complemented. -/
def norWords (a b : Word) : Word := ~~~(a ||| b)
/-- R130. -/
def shiftLeft (b : Word) (n : Nat) : Word := b <<< n
/-- R131: zeros shifted in at bit 31. -/
def shiftRight (b : Word) (n : Nat) : Word := b >>> n
/-- R132: copies of bit 31 shifted in (D18). -/
def shiftRightArith (b : Word) (n : Nat) : Word := b.sshiftRight n
/-- R139: `imm << 16`. -/
def upperImm (imm : Word) : Word := imm <<< 16

/-! ### The instructions -/

/-- R121 ADD. -/
def execAdd (rs rt rd : Reg) (s : State) : Result := aluRegister rs rt rd addWords s

/-- R122 ADDU. -/
def execAddu (rs rt rd : Reg) (s : State) : Result := aluRegister rs rt rd addWords s

/-- R123 SUB. -/
def execSub (rs rt rd : Reg) (s : State) : Result := aluRegister rs rt rd subWords s

/-- R124 SUBU. -/
def execSubu (rs rt rd : Reg) (s : State) : Result := aluRegister rs rt rd subWords s

/-- R125 AND. -/
def execAnd (rs rt rd : Reg) (s : State) : Result := aluRegister rs rt rd andWords s

/-- R126 OR. -/
def execOr (rs rt rd : Reg) (s : State) : Result := aluRegister rs rt rd orWords s

/-- R127 XOR. -/
def execXor (rs rt rd : Reg) (s : State) : Result := aluRegister rs rt rd xorWords s

/-- R128 NOR. -/
def execNor (rs rt rd : Reg) (s : State) : Result := aluRegister rs rt rd norWords s

/-- R129 SLT, a signed comparison. -/
def execSlt (rs rt rd : Reg) (s : State) : Result := aluRegister rs rt rd compareWord s

/-- R130 SLL. -/
def execSll (rt rd shamt : Reg) (s : State) : Result := aluShift rt rd shamt shiftLeft s

/-- R131 SRL. -/
def execSrl (rt rd shamt : Reg) (s : State) : Result := aluShift rt rd shamt shiftRight s

/-- R132 SRA. -/
def execSra (rt rd shamt : Reg) (s : State) : Result := aluShift rt rd shamt shiftRightArith s

/-- R133 ADDI. -/
def execAddi (rs rt : Reg) (imm : Half) (s : State) : Result := aluImmediate rs rt (signImm imm) addWords s

/-- R134 ADDIU: the immediate is sign-extended. -/
def execAddiu (rs rt : Reg) (imm : Half) (s : State) : Result := aluImmediate rs rt (signImm imm) addWords s

/-- R135 SLTI. -/
def execSlti (rs rt : Reg) (imm : Half) (s : State) : Result := aluImmediate rs rt (signImm imm) compareWord s

/-- R136 ANDI: the immediate is zero-extended. -/
def execAndi (rs rt : Reg) (imm : Half) (s : State) : Result := aluImmediate rs rt (zeroImm imm) andWords s

/-- R137 ORI. -/
def execOri (rs rt : Reg) (imm : Half) (s : State) : Result := aluImmediate rs rt (zeroImm imm) orWords s

/-- R138 XORI. -/
def execXori (rs rt : Reg) (imm : Half) (s : State) : Result := aluImmediate rs rt (zeroImm imm) xorWords s

/-- R139 LUI: reads no register. -/
def execLui (rt : Reg) (imm : Half) (s : State) : Result :=
  byStage (issue { plainIssue s.ifId.ir with dest := some rt, imm := zeroImm imm })
    (executeResult (upperImm s.idEx.imm)) memoryPass writebackResult s

end Sys2Proof.Machine
end

