-- ==== Sys2Proof/Machine/Branch.lean ====
section
/-! DEFINITION. Branches and jumps (`43_branch_jump.md`), resolved in Execute. No delay slot: the flush is what Decode and Fetch do
when `branch_pending` is raised (R88, R98, R182). -/

namespace Sys2Proof.Machine

/-- R170: the target of a conditional branch, relative to the branch's OWN address (D7). -/
def branchTargetOf (l : Latch) : Word := l.pc + (l.imm <<< 2)

/-- R177: the target of J and JAL, the upper four bits those of the jump's own address (D7). -/
def jumpTargetOf (l : Latch) : Word := l.pc.extractLsb' 28 4 ++ l.target ++ 0#2

/-- R178, R180: the link value, the jump's address plus 4 (D8). -/
def linkOf (l : Latch) : Word := l.pc + 4

/-- The Execute action of a taken transfer that writes no register. -/
def executeTransfer (t : Word) (s : State) : State := (executePass s).raiseBranch t

/-- The Execute action of a jump that links. -/
def executeLink (t : Word) (s : State) : State := (executeResult (linkOf s.idEx) s).raiseBranch t

/-- R170: Execute of a conditional branch whose condition came out as `taken`. -/
def executeBranch (taken : Bool) (s : State) : State :=
  if taken then executeTransfer (branchTargetOf s.idEx) s else executePass s

/-- R170: a branch that compares two registers. -/
def branchTwo (rs rt : Reg) (offset : Half) (cond : Word → Word → Bool) (s : State) : Result :=
  byStage (issue { plainIssue s.ifId.ir with a := some rs, b := some rt, imm := signImm offset })
    (executeBranch (cond s.idEx.a s.idEx.b)) memoryPass writebackResult s

/-- R170: a branch that tests one register. -/
def branchOne (rs : Reg) (offset : Half) (cond : Word → Bool) (s : State) : Result :=
  byStage (issueImm rs none (signImm offset)) (executeBranch (cond s.idEx.a)) memoryPass writebackResult s

/-- R171 BEQ. -/
def execBeq (rs rt : Reg) (offset : Half) (s : State) : Result := branchTwo rs rt offset condEq s

/-- R172 BNE. -/
def execBne (rs rt : Reg) (offset : Half) (s : State) : Result := branchTwo rs rt offset condNe s

/-- R173 BLEZ. -/
def execBlez (rs : Reg) (offset : Half) (s : State) : Result := branchOne rs offset condLez s

/-- R174 BGTZ. -/
def execBgtz (rs : Reg) (offset : Half) (s : State) : Result := branchOne rs offset condGtz s

/-- R175 BLTZ. -/
def execBltz (rs : Reg) (offset : Half) (s : State) : Result := branchOne rs offset condLtz s

/-- R176 BGEZ. -/
def execBgez (rs : Reg) (offset : Half) (s : State) : Result := branchOne rs offset condGez s

/-- R177 J. -/
def execJ (index : BitVec 26) (s : State) : Result :=
  byStage (issue { plainIssue s.ifId.ir with target := index })
    (executeTransfer (jumpTargetOf s.idEx)) memoryPass writebackResult s

/-- R178 JAL: the link goes to register 31. -/
def execJal (index : BitVec 26) (s : State) : Result :=
  byStage (issue { plainIssue s.ifId.ir with dest := some 31, target := index })
    (executeLink (jumpTargetOf s.idEx)) memoryPass writebackResult s

/-- R179 JR: all 32 bits of the register, unmodified (R181). -/
def execJr (rs : Reg) (s : State) : Result :=
  byStage (issue { plainIssue s.ifId.ir with a := some rs })
    (executeTransfer s.idEx.a) memoryPass writebackResult s

/-- R180 JALR: the link goes to the `rd` field's register, no implied 31. -/
def execJalr (rs rd : Reg) (s : State) : Result :=
  byStage (issue { plainIssue s.ifId.ir with a := some rs, dest := some rd })
    (executeLink s.idEx.a) memoryPass writebackResult s

end Sys2Proof.Machine
end

