-- ==== Sys2Proof/Machine/LoadStore.lean ====
section
/-! DEFINITION. Loads and stores (`44_load_store.md`). R190: Decode reads the base into `A` and a store's data into `StoreData`,
Execute adds the sign-extended offset, Memory makes the access. No alignment (R45), no fault (R46). -/

namespace Sys2Proof.Machine

/-- R190: the effective address, modulo 2^32. -/
def effectiveAddress (l : Latch) : Word := l.a + l.imm

/-- R190: a load whose loaded value, extended to 32 bits, is `ext s` in the Memory stage. -/
def loadOp (rs rt : Reg) (offset : Half) (ext : State → Word) (s : State) : Result :=
  byStage (issueImm rs (some rt) (signImm offset)) (executeResult (effectiveAddress s.idEx))
    (memoryLoad (ext s)) writebackLoad s

/-- R190: a store of `n` bytes. -/
def storeOp (rs rt : Reg) (offset : Half) (n : Nat) (s : State) : Result :=
  byStage (issue { plainIssue s.ifId.ir with a := some rs, storeData := some rt, imm := signImm offset })
    (executeResult (effectiveAddress s.idEx)) (memoryStore n) writebackResult s

/-- R191 LB: sign-extended. -/
def execLb (rs rt : Reg) (offset : Half) (s : State) : Result :=
  loadOp rs rt offset (fun s => (memRead8 s.params s.mem s.exMem.aluOutput).signExtend 32) s

/-- R192 LH: sign-extended. -/
def execLh (rs rt : Reg) (offset : Half) (s : State) : Result :=
  loadOp rs rt offset (fun s => (memRead16 s.params s.mem s.exMem.aluOutput).signExtend 32) s

/-- R193 LW. -/
def execLw (rs rt : Reg) (offset : Half) (s : State) : Result :=
  loadOp rs rt offset (fun s => memRead32 s.params s.mem s.exMem.aluOutput) s

/-- R194 SB. -/
def execSb (rs rt : Reg) (offset : Half) (s : State) : Result := storeOp rs rt offset 1 s

/-- R195 SH. -/
def execSh (rs rt : Reg) (offset : Half) (s : State) : Result := storeOp rs rt offset 2 s

/-- R196 SW. -/
def execSw (rs rt : Reg) (offset : Half) (s : State) : Result := storeOp rs rt offset 4 s

end Sys2Proof.Machine
end

