-- ==== Sys2Proof/Machine/MulDiv.lean ====
section
/-! DEFINITION. Multiply, divide and the HI/LO moves (`42_muldiv_hilo.md`). All HI/LO traffic is in Execute: writes go to `nxt`,
reads come from `cur` (R15, R159). -/

namespace Sys2Proof.Machine

/-- R150: a multiply or divide; `f A B` is what it writes, as (HI, LO), or none where it leaves both unchanged. -/
def hiLoOp (rs rt : Reg) (f : Word → Word → Option (Word × Word)) (s : State) : Result :=
  byStage (issueRegs rs rt none)
    (fun s => match f s.idEx.a s.idEx.b with
      | some (hi, lo) => ((executePass s).setNxtHi hi).setNxtLo lo
      | none => executePass s)
    memoryPass writebackResult s

/-- HI and LO of an exact 64-bit value in two's complement (R151, R152). -/
def hiLoOf (p : BitVec 64) : Word × Word := (p.extractLsb' 32 32, p.extractLsb' 0 32)

/-- R151: the exact signed product. -/
def signedProduct (a b : Word) : Word × Word := hiLoOf (BitVec.ofInt 64 (a.toInt * b.toInt))

/-- R152: the exact unsigned product. -/
def unsignedProduct (a b : Word) : Word × Word := hiLoOf (BitVec.ofNat 64 (a.toNat * b.toNat))

/-- R153: (HI, LO) = (remainder, quotient), the quotient rounded toward zero; nothing for a zero divisor; the parameter
`DIV_OVERFLOW_RESULT` for `0x80000000 / 0xFFFFFFFF` (log 4). -/
def signedQuotient (p : Config.Params) (a b : Word) : Option (Word × Word) :=
  if b = 0 then none
  else if a = 0x80000000 ∧ b = 0xFFFFFFFF then some (p.divOverflowHi, p.divOverflowLo)
  else some (BitVec.ofInt 32 (a.toInt - a.toInt.tdiv b.toInt * b.toInt), BitVec.ofInt 32 (a.toInt.tdiv b.toInt))

/-- R154: (HI, LO) = (remainder, quotient), unsigned; nothing for a zero divisor. -/
def unsignedQuotient (a b : Word) : Option (Word × Word) :=
  if b = 0 then none
  else some (BitVec.ofNat 32 (a.toNat % b.toNat), BitVec.ofNat 32 (a.toNat / b.toNat))

/-- R151 MULT. -/
def execMult (rs rt : Reg) (s : State) : Result := hiLoOp rs rt (fun a b => some (signedProduct a b)) s

/-- R152 MULTU. -/
def execMultu (rs rt : Reg) (s : State) : Result := hiLoOp rs rt (fun a b => some (unsignedProduct a b)) s

/-- R153 DIV. -/
def execDiv (rs rt : Reg) (s : State) : Result := hiLoOp rs rt (signedQuotient s.params) s

/-- R154 DIVU. -/
def execDivu (rs rt : Reg) (s : State) : Result := hiLoOp rs rt unsignedQuotient s

/-- R155 MFHI: `ALUOutput <- cur.hi`. -/
def execMfhi (rd : Reg) (s : State) : Result :=
  byStage (issueNone (some rd)) (executeResult s.cur.hi) memoryPass writebackResult s

/-- R156 MFLO: `ALUOutput <- cur.lo`. -/
def execMflo (rd : Reg) (s : State) : Result :=
  byStage (issueNone (some rd)) (executeResult s.cur.lo) memoryPass writebackResult s

/-- Decode of MTHI and MTLO: `rs` into `A`, no destination (R157). -/
def issueMove (rs : Reg) (s : State) : State :=
  issue { plainIssue s.ifId.ir with a := some rs } s

/-- R157 MTHI: `nxt.hi <- A`. -/
def execMthi (rs : Reg) (s : State) : Result :=
  byStage (issueMove rs) (fun s => (executePass s).setNxtHi s.idEx.a) memoryPass writebackResult s

/-- R158 MTLO: `nxt.lo <- A`. -/
def execMtlo (rs : Reg) (s : State) : Result :=
  byStage (issueMove rs) (fun s => (executePass s).setNxtLo s.idEx.a) memoryPass writebackResult s

end Sys2Proof.Machine
end

