-- ==== Sys2Proof/Machine/System.lean ====
section
/-! DEFINITION. SYSCALL, the NOP and unimplemented words (`45_system.md`). -/

namespace Sys2Proof.Machine

/-- R13, R210: the register that holds the service code, `v0`. -/
def serviceRegister : Reg := 2

/-- R6, R210: the service code that halts the machine. -/
def haltCode : Word := 10

/-- R210, R83: Writeback of a SYSCALL; all 32 bits of `cur.x[2]` are compared, and no register is written. -/
def writebackSyscall (s : State) : State :=
  if readReg s.cur.x serviceRegister = haltCode then s.halt else s

/-- R210 SYSCALL: reads no register in Decode, empty Execute action; with another service code it has no effect. -/
def execSyscall (s : State) : Result :=
  byStage (issueNone none) executePass memoryPass writebackSyscall s

/-- R211 NOP and bubble: Decode emits `CLEAR`, Execute and Memory copy the latch, Writeback does nothing. -/
def execNop (s : State) : Result :=
  byStage (fun s => s.setIdEx Latch.clear) executePass memoryPass (fun s => s) s

/-- R89, R212: Decode of an unimplemented word reports it and issues it with no source and no destination. -/
def issueUnimplemented (s : State) : State :=
  s.noteUnimplemented.setIdEx (issuedLatch (plainIssue s.ifId.ir) s)

/-- R212: what the stage units do with an unimplemented word; no constructor of Instr stands for it (log 5). -/
def stageUnimplemented (s : State) : Result :=
  byStage issueUnimplemented executePass memoryPass writebackResult s

end Sys2Proof.Machine
end

