-- ==== Sys2Proof/Machine/Dispatch.lean ====
section
/-! DEFINITION. `exec i s`: the stage unit that `s.stage` names acts on instruction `i`, held by that unit's input latch. -/

namespace Sys2Proof.Machine

def exec (i : Instr) (s : State) : Host.Outcome State Fault Refusal :=
  match i with
  | .nop => Sys2Proof.Machine.execNop s
  | .add rs rt rd _ => Sys2Proof.Machine.execAdd rs rt rd s
  | .addu rs rt rd _ => Sys2Proof.Machine.execAddu rs rt rd s
  | .sub rs rt rd _ => Sys2Proof.Machine.execSub rs rt rd s
  | .subu rs rt rd _ => Sys2Proof.Machine.execSubu rs rt rd s
  | .and rs rt rd _ => Sys2Proof.Machine.execAnd rs rt rd s
  | .or rs rt rd _ => Sys2Proof.Machine.execOr rs rt rd s
  | .xor rs rt rd _ => Sys2Proof.Machine.execXor rs rt rd s
  | .nor rs rt rd _ => Sys2Proof.Machine.execNor rs rt rd s
  | .slt rs rt rd _ => Sys2Proof.Machine.execSlt rs rt rd s
  | .sll _ rt rd shamt => Sys2Proof.Machine.execSll rt rd shamt s
  | .srl _ rt rd shamt => Sys2Proof.Machine.execSrl rt rd shamt s
  | .sra _ rt rd shamt => Sys2Proof.Machine.execSra rt rd shamt s
  | .addi rs rt imm => Sys2Proof.Machine.execAddi rs rt imm s
  | .addiu rs rt imm => Sys2Proof.Machine.execAddiu rs rt imm s
  | .slti rs rt imm => Sys2Proof.Machine.execSlti rs rt imm s
  | .andi rs rt imm => Sys2Proof.Machine.execAndi rs rt imm s
  | .ori rs rt imm => Sys2Proof.Machine.execOri rs rt imm s
  | .xori rs rt imm => Sys2Proof.Machine.execXori rs rt imm s
  | .lui _ rt imm => Sys2Proof.Machine.execLui rt imm s
  | .mult rs rt _ _ => Sys2Proof.Machine.execMult rs rt s
  | .multu rs rt _ _ => Sys2Proof.Machine.execMultu rs rt s
  | .div rs rt _ _ => Sys2Proof.Machine.execDiv rs rt s
  | .divu rs rt _ _ => Sys2Proof.Machine.execDivu rs rt s
  | .mfhi _ _ rd _ => Sys2Proof.Machine.execMfhi rd s
  | .mflo _ _ rd _ => Sys2Proof.Machine.execMflo rd s
  | .mthi rs _ _ _ => Sys2Proof.Machine.execMthi rs s
  | .mtlo rs _ _ _ => Sys2Proof.Machine.execMtlo rs s
  | .beq rs rt offset => Sys2Proof.Machine.execBeq rs rt offset s
  | .bne rs rt offset => Sys2Proof.Machine.execBne rs rt offset s
  | .blez rs _ offset => Sys2Proof.Machine.execBlez rs offset s
  | .bgtz rs _ offset => Sys2Proof.Machine.execBgtz rs offset s
  | .bltz rs offset => Sys2Proof.Machine.execBltz rs offset s
  | .bgez rs offset => Sys2Proof.Machine.execBgez rs offset s
  | .j index => Sys2Proof.Machine.execJ index s
  | .jal index => Sys2Proof.Machine.execJal index s
  | .jr rs _ _ _ => Sys2Proof.Machine.execJr rs s
  | .jalr rs _ rd _ => Sys2Proof.Machine.execJalr rs rd s
  | .lb rs rt offset => Sys2Proof.Machine.execLb rs rt offset s
  | .lh rs rt offset => Sys2Proof.Machine.execLh rs rt offset s
  | .lw rs rt offset => Sys2Proof.Machine.execLw rs rt offset s
  | .sb rs rt offset => Sys2Proof.Machine.execSb rs rt offset s
  | .sh rs rt offset => Sys2Proof.Machine.execSh rs rt offset s
  | .sw rs rt offset => Sys2Proof.Machine.execSw rs rt offset s
  | .syscall _ => Sys2Proof.Machine.execSyscall s

end Sys2Proof.Machine
end

