-- ==== Sys2Proof/Machine/Units.lean ====
section
/-! DEFINITION. The stage units of one cycle (`40_pipeline.md`): each decodes the word in its input latch and runs that
instruction's contribution; then Fetch and the commit. -/

namespace Sys2Proof.Machine

/-- Runs `f` on the next state; a stop stays a stop. -/
def Result.andThen (r : Result) (f : State → Result) : Result :=
  match r with
  | .next s => f s
  | .fault e => .fault e
  | .refused e => .refused e

/-- R74: the unit `g` acts on the word `w` of its input latch. -/
def runUnit (g : Stage) (w : Word) (s : State) : Result :=
  match decode w with
  | .instr i => exec i (s.at g)
  | .unimplemented _ => stageUnimplemented (s.at g)

/-- R83. -/
def writebackUnit (s : State) : Result := runUnit .writeback s.memWb.ir s

/-- R84. -/
def memoryUnit (s : State) : Result := runUnit .memory s.exMem.ir s

/-- R85. -/
def executeUnit (s : State) : Result := runUnit .execute s.idEx.ir s

/-- R88: the entry conditions of Decode in their order, flush, stall, nothing staged; then R89 to R97. -/
def decodeUnit (s : State) : Result :=
  if s.branchPending then .next ((s.at .decode).setIdEx Latch.clear)
  else if s.stall > 0 then .next ((s.at .decode).setIdEx Latch.clear)
  else runUnit .decode s.ifId.ir s

/-- R80, R81: one cycle, Writeback, Memory, Execute, Decode, Fetch, and the commit. -/
def cycle (s : State) : Result :=
  Result.andThen (writebackUnit s) fun s1 =>
  Result.andThen (memoryUnit s1) fun s2 =>
  Result.andThen (executeUnit s2) fun s3 =>
  Result.andThen (decodeUnit s3) fun s4 =>
  .next (fetchUnit s4).commit

/-- R248, R82: `step()`; while halted it changes nothing. -/
def stepCycle (s : State) : Result := if s.halted then .next s else cycle s

/-- `MemWrite` of a word by the loader (R240). -/
def State.loadWord (s : State) (a w : Word) : State := s.setMem (memWrite s.params s.mem a 4 w)

/-- The latch a unit has filled, if it answered a state. -/
def latchOf (r : Result) (pick : State → Latch) : Latch :=
  match r with
  | .next s => pick s
  | _ => Latch.clear

/-- The word `w` at `cur.pc` in memory, and the same instruction in all four latches, as Fetch, Decode, Execute and Memory
fill them for it on an empty pipe: the very next cycle runs every stage unit on exactly this instruction (log 7). -/
def State.withWordInFlight (s : State) (w : Word) : State :=
  let s0 := (s.loadWord s.cur.pc w).setIfId { Latch.clear with ir := w, pc := s.cur.pc }
  let d := latchOf (runUnit .decode w ((s0.setExMem Latch.clear).setMemWb Latch.clear)) State.idEx
  let e := latchOf (runUnit .execute w (s0.setIdEx d)) State.exMem
  let m := latchOf (runUnit .memory w (s0.setExMem e)) State.memWb
  ((s0.setIdEx d).setExMem e).setMemWb m

end Sys2Proof.Machine
end

