-- ==== Sys2Proof/Machine/Step.lean ====
section
/-! DEFINITION. The step of the machine: the spec's `step()`, one clock cycle (`40_pipeline.md` R80, R82), and the host's placing
of one instruction. -/

namespace Sys2Proof.Machine

/-- R80, R82, R248: `step()`, one cycle; while halted it changes nothing and answers the same state (log 12). -/
def step (s : State) : Host.Outcome State Fault Refusal := stepCycle s

/-- The host's placing of the instruction whose bits are `w` where the next step runs it (log 7). -/
def State.withFetchWord (s : State) (nbits w : Nat) : State := s.withWordInFlight (tableWord nbits w)

end Sys2Proof.Machine
end

