-- ==== Sys2Proof/Machine/HostOps.lean ====
section
/-! DEFINITION. The operations the core exposes to its host (`70_reset_and_hazards.md` R240, R248 to R252). The read accessors are
the fields of State: `cur`, the four latches, `halted`, `cycleCount`, `unimplementedSeen` (R252). -/

namespace Sys2Proof.Machine

/-- R248: what `step()` returns. -/
inductive StepStatus where
  | stepped
  | alreadyHalted
deriving DecidableEq, Repr

/-- R248: `step()` with its status. -/
def hostStep (s : State) : Host.Outcome (StepStatus × State) Fault Refusal :=
  if s.halted then .next (.alreadyHalted, s)
  else match step s with
    | .next t => .next (.stepped, t)
    | .fault e => .fault e
    | .refused e => .refused e

/-- R249: `run(n)`, with the number of cycles executed. -/
def hostRun : Nat → State → Host.Outcome (Nat × State) Fault Refusal
  | 0, s => .next (0, s)
  | n + 1, s =>
    if s.halted then .next (0, s)
    else match step s with
      | .next t =>
        match hostRun n t with
        | .next (k, u) => .next (k + 1, u)
        | .fault e => .fault e
        | .refused e => .refused e
      | .fault e => .fault e
      | .refused e => .refused e

/-- R250, U7: `runToCompletion()` with explicit fuel; none where the fuel ends before the halt. -/
def hostRunToCompletion (fuel : Nat) (s : State) : Host.Outcome (Option State) Fault Refusal :=
  match hostRun fuel s with
  | .next (_, t) => .next (if t.halted then some t else none)
  | .fault e => .fault e
  | .refused e => .refused e

/-- R252: the `forwarding_enabled` toggle, between two cycles. -/
def setForwarding (on : Bool) (s : State) : State := { s with forwarding := on }

/-- R240, R28: power-on with given parameters. -/
def powerOn (p : Config.Params) : State := State.resetWith p p.forwardingReset (loadImage p)

/-- R251, R240: `reset()`; the loader writes the same image again and `forwarding_enabled` keeps its value. -/
def hostReset (s : State) : State := State.resetWith s.params s.forwarding (loadImage s.params)

end Sys2Proof.Machine
end

