-- ==== Sys2Proof/Machine/Clocked.lean ====
section
/-! DEFINITION. The core as clocked hardware (`40_pipeline.md` R101): every register is loaded once, at the edge, from values held
during the cycle. `s` gives the `Q` values; the result gives the `D` values. The step does not use this file. -/

namespace Sys2Proof.Machine

/-- A unit's outputs; the inputs where it stops, which no unit does. -/
def settled (s : State) (r : Result) : State :=
  match r with
  | .next t => t
  | _ => s

/-- R101. -/
def clockedStep (s : State) : State :=
  let wb := settled s (writebackUnit s)
  let mm := settled s (memoryUnit s)
  let ex := settled s (executeUnit s)
  let taken := ex.branchPending
  -- what the hazard unit and the forwarding multiplexers of ID see: the outputs of the EX and MEM stages, and a
  -- register file whose read ports bypass the value being written
  let seen := { s with nxt := { s.nxt with x := wb.nxt.x }, exMem := ex.exMem, memWb := mm.memWb }
  let idActive := !taken && s.stall == 0 && s.ifId.ir != 0
  let id := if idActive then settled s (runUnit .decode s.ifId.ir seen) else s.setIdEx Latch.clear
  let stall' := if idActive then id.stall else s.stall
  let pc' := if taken then ex.branchTarget else if stall' > 0 then s.cur.pc else s.cur.pc + 4
  let arch := { pc := pc', x := wb.nxt.x, hi := ex.nxt.hi, lo := ex.nxt.lo : Arch }
  { s with
    cur := arch, nxt := arch,
    memWb := mm.memWb, exMem := ex.exMem, idEx := id.idEx,
    ifId := if taken then Latch.clear else if stall' > 0 then s.ifId
      else { Latch.clear with ir := memRead32 s.params mm.mem s.cur.pc, pc := s.cur.pc },
    stall := if taken then 0 else stall' - 1,
    halted := wb.halted, branchTarget := ex.branchTarget, unimplementedSeen := id.unimplementedSeen,
    mem := mm.mem, cycleCount := s.cycleCount + 1 }

end Sys2Proof.Machine
end

