-- ==== Sys2Proof/Machine/Sequential.lean ====
section
/-! DEFINITION. The sequential machine of `40_pipeline.md` R103, "direct (non-pipelined) evaluation": the "Architectural effect" line
of every instruction rule; and how a state of the pipeline is read as one of the sequential machine (log 13). The step of
the hardware does not use this file; statements compare the two. -/

namespace Sys2Proof.Machine

/-- R103: `(pc, x[0..31], hi, lo, memory)`. -/
structure SeqState where
  arch : Arch
  mem : Memory
deriving DecidableEq, Repr

/-- `x[r]`. -/
def SeqState.reg (q : SeqState) (r : Reg) : Word := readReg q.arch.x r

/-- `pc <- v`. -/
def SeqState.goto (q : SeqState) (v : Word) : SeqState := { q with arch := { q.arch with pc := v } }

/-- "if that line does not assign `pc`, `pc <- pc + 4`" (R103). -/
def SeqState.advance (q : SeqState) : SeqState := q.goto (q.arch.pc + 4)

/-- `x[r] <- v`. -/
def SeqState.setReg (q : SeqState) (r : Reg) (v : Word) : SeqState :=
  { q with arch := { q.arch with x := writeReg q.arch.x r v } }

/-- `(hi, lo) <- v`. -/
def SeqState.setHiLo (q : SeqState) (v : Word × Word) : SeqState :=
  { q with arch := { q.arch with hi := v.1, lo := v.2 } }

/-- `pc <- if cond then PC + (sext_32(offset) << 2) else PC + 4` (R170). -/
def SeqState.branchIf (q : SeqState) (cond : Bool) (offset : Half) : SeqState :=
  if cond then q.goto (q.arch.pc + (signImm offset <<< 2)) else q.advance

/-- The address of a load or store (R190). -/
def SeqState.address (q : SeqState) (rs : Reg) (offset : Half) : Word := q.reg rs + signImm offset

/-- The store of `n` bytes of `x[rt]` (R194 to R196). -/
def SeqState.store (q : SeqState) (p : Config.Params) (rs rt : Reg) (offset : Half) (n : Nat) : SeqState :=
  { q with mem := memWrite p q.mem (q.address rs offset) n (q.reg rt) }

/-- R177: `PC[31:28] ++ instr_index ++ 0b00`. -/
def SeqState.jumpTarget (q : SeqState) (index : BitVec 26) : Word :=
  q.arch.pc.extractLsb' 28 4 ++ index ++ 0#2

/-- The "Architectural effect" line of each instruction's rule. SYSCALL's halt is `seqHalts`. -/
def seqEffect (p : Config.Params) (i : Instr) (q : SeqState) : SeqState :=
  match i with
  | .nop => q.advance
  | .add rs rt rd _ => (q.setReg rd (q.reg rs + q.reg rt)).advance
  | .addu rs rt rd _ => (q.setReg rd (q.reg rs + q.reg rt)).advance
  | .sub rs rt rd _ => (q.setReg rd (q.reg rs - q.reg rt)).advance
  | .subu rs rt rd _ => (q.setReg rd (q.reg rs - q.reg rt)).advance
  | .and rs rt rd _ => (q.setReg rd (q.reg rs &&& q.reg rt)).advance
  | .or rs rt rd _ => (q.setReg rd (q.reg rs ||| q.reg rt)).advance
  | .xor rs rt rd _ => (q.setReg rd (q.reg rs ^^^ q.reg rt)).advance
  | .nor rs rt rd _ => (q.setReg rd (~~~(q.reg rs ||| q.reg rt))).advance
  | .slt rs rt rd _ => (q.setReg rd (if (q.reg rs).slt (q.reg rt) then 1 else 0)).advance
  | .sll _ rt rd sh => (q.setReg rd (q.reg rt <<< sh.toNat)).advance
  | .srl _ rt rd sh => (q.setReg rd (q.reg rt >>> sh.toNat)).advance
  | .sra _ rt rd sh => (q.setReg rd ((q.reg rt).sshiftRight sh.toNat)).advance
  | .addi rs rt imm => (q.setReg rt (q.reg rs + signImm imm)).advance
  | .addiu rs rt imm => (q.setReg rt (q.reg rs + signImm imm)).advance
  | .slti rs rt imm => (q.setReg rt (if (q.reg rs).slt (signImm imm) then 1 else 0)).advance
  | .andi rs rt imm => (q.setReg rt (q.reg rs &&& zeroImm imm)).advance
  | .ori rs rt imm => (q.setReg rt (q.reg rs ||| zeroImm imm)).advance
  | .xori rs rt imm => (q.setReg rt (q.reg rs ^^^ zeroImm imm)).advance
  | .lui _ rt imm => (q.setReg rt (imm ++ 0#16)).advance
  | .mult rs rt _ _ =>
    let product := (q.reg rs).signExtend 64 * (q.reg rt).signExtend 64
    (q.setHiLo (product.extractLsb' 32 32, product.extractLsb' 0 32)).advance
  | .multu rs rt _ _ =>
    let product := (q.reg rs).zeroExtend 64 * (q.reg rt).zeroExtend 64
    (q.setHiLo (product.extractLsb' 32 32, product.extractLsb' 0 32)).advance
  | .div rs rt _ _ =>
    if q.reg rt = 0 then q.advance
    else if q.reg rs = 0x80000000 ∧ q.reg rt = 0xFFFFFFFF then (q.setHiLo (p.divOverflowHi, p.divOverflowLo)).advance
    else (q.setHiLo ((q.reg rs).srem (q.reg rt), (q.reg rs).sdiv (q.reg rt))).advance
  | .divu rs rt _ _ =>
    if q.reg rt = 0 then q.advance
    else (q.setHiLo (q.reg rs % q.reg rt, q.reg rs / q.reg rt)).advance
  | .mfhi _ _ rd _ => (q.setReg rd q.arch.hi).advance
  | .mflo _ _ rd _ => (q.setReg rd q.arch.lo).advance
  | .mthi rs _ _ _ => (q.setHiLo (q.reg rs, q.arch.lo)).advance
  | .mtlo rs _ _ _ => (q.setHiLo (q.arch.hi, q.reg rs)).advance
  | .beq rs rt offset => q.branchIf (q.reg rs == q.reg rt) offset
  | .bne rs rt offset => q.branchIf (q.reg rs != q.reg rt) offset
  | .blez rs _ offset => q.branchIf ((q.reg rs).msb || q.reg rs == 0) offset
  | .bgtz rs _ offset => q.branchIf (!(q.reg rs).msb && q.reg rs != 0) offset
  | .bltz rs offset => q.branchIf (q.reg rs).msb offset
  | .bgez rs offset => q.branchIf (!(q.reg rs).msb) offset
  | .j index => q.goto (q.jumpTarget index)
  | .jal index => (q.setReg 31 (q.arch.pc + 4)).goto (q.jumpTarget index)
  | .jr rs _ _ _ => q.goto (q.reg rs)
  | .jalr rs _ rd _ => (q.setReg rd (q.arch.pc + 4)).goto (q.reg rs)
  | .lb rs rt offset => (q.setReg rt ((memRead8 p q.mem (q.address rs offset)).signExtend 32)).advance
  | .lh rs rt offset => (q.setReg rt ((memRead16 p q.mem (q.address rs offset)).signExtend 32)).advance
  | .lw rs rt offset => (q.setReg rt (memRead32 p q.mem (q.address rs offset))).advance
  | .sb rs rt offset => (q.store p rs rt offset 1).advance
  | .sh rs rt offset => (q.store p rs rt offset 2).advance
  | .sw rs rt offset => (q.store p rs rt offset 4).advance
  | .syscall _ => q.advance

/-- The instruction the sequential machine is at. -/
def SeqState.current (p : Config.Params) (q : SeqState) : Decoded := decode (memRead32 p q.mem q.arch.pc)

/-- R103: one step of the sequential machine; an unimplemented word is a no-op (R212). -/
def seqStep (p : Config.Params) (q : SeqState) : SeqState :=
  match q.current p with
  | .instr i => seqEffect p i q
  | .unimplemented _ => q.advance

/-- `k` steps of the sequential machine. -/
def seqSteps (p : Config.Params) : Nat → SeqState → SeqState
  | 0, q => q
  | k + 1, q => seqSteps p k (seqStep p q)

/-- R103: the machine stops "when a SYSCALL is executed with `x[2] == 10`". -/
def seqHalts (p : Config.Params) (q : SeqState) : Bool :=
  match q.current p with
  | .instr (.syscall _) => q.reg serviceRegister == haltCode
  | _ => false

/-! ### Reading the pipeline as a sequential machine -/

/-- An instruction with the pipe to itself: Decode, Execute, Memory and Writeback act on it in turn (R102 item 1). -/
def passage (i : Instr) (s : State) : Result :=
  Result.andThen (exec i (s.at .decode)) fun s1 =>
  Result.andThen (exec i (s1.at .execute)) fun s2 =>
  Result.andThen (exec i (s2.at .memory)) fun s3 =>
  exec i (s3.at .writeback)

/-- Lets the issued instructions, those in `MEM_WB`, `EX_MEM` and `ID_EX`, finish, oldest first, while nothing is decoded or
fetched ("From here on the instruction cannot be stalled or flushed", R97). -/
def drain (s : State) : Result :=
  Result.andThen (writebackUnit s) fun s1 =>
  Result.andThen (memoryUnit s1) fun s2 =>
  Result.andThen (executeUnit s2) fun s3 =>
  Result.andThen (writebackUnit s3) fun s4 =>
  Result.andThen (memoryUnit s4) fun s5 =>
  writebackUnit s5

/-- The program-order state that a pipeline state `s` stands for, `d` being `drain s`: the next instruction in program order is
a pending transfer's target, or the one held in `IF_ID`, or the one to be fetched. -/
def programView (s d : State) : SeqState :=
  { arch :=
      { d.nxt with
        pc := if d.branchPending then d.branchTarget else if s.ifId = Latch.clear then s.cur.pc else s.ifId.pc },
    mem := d.mem }

end Sys2Proof.Machine
end

