-- ==== Sys2Proof/Safety.lean ====
section
/-! DEFINITION. What a good state and a good run are, in the terms the statements use (`10_state.md` R23, R27). -/

namespace Sys2Proof.Machine

/-- R90: the latch's destination is the one R75 gives for the word it holds. -/
def destMatches (l : Latch) : Bool :=
  match decode l.ir with
  | .instr i => destOf i == some l.registerRd
  | .unimplemented _ => false

/-- R27 items 4 and 6 for a latch behind Decode: a bubble is `CLEAR`, and `RegWrite` is set only by an instruction that defines
a destination, which is then `RegisterRd`. -/
def latchOk (l : Latch) : Bool := (l.ir != 0 || l == Latch.clear) && (!l.regWrite || destMatches l)

/-- R23: `IF_ID` holds a word and its address; "all other fields are 0". -/
def fetchedOnly (l : Latch) : Bool := l == { Latch.clear with ir := l.ir, pc := l.pc }

/-- R27 items 1 to 6 and R23, at a cycle boundary, with two facts they rest on: Fetch is one word ahead of `IF_ID`, and the next
unit to run is Writeback. -/
abbrev PipelineInv (s : State) : Prop :=
  s.nxt = s.cur ∧ s.branchPending = false ∧ s.stall ≤ 2 ∧
  latchOk s.idEx = true ∧ latchOk s.exMem = true ∧ latchOk s.memWb = true ∧
  s.idEx.aluOutput = 0 ∧ s.idEx.lmd = 0 ∧ s.exMem.lmd = 0 ∧
  (0 < s.stall → s.idEx = Latch.clear ∧ s.ifId.ir ≠ 0) ∧
  fetchedOnly s.ifId = true ∧ (s.ifId = Latch.clear ∨ s.cur.pc = s.ifId.pc + 4) ∧
  s.stage = Stage.writeback

/-- The memory image is in canonical form and lists bytes of the four regions only (R41, R46). -/
def memoryOk (p : Config.Params) (m : Memory) : Bool :=
  m.wf && m.all (fun c => decide (c.1 < 2 ^ 32) && (regionOf p (BitVec.ofNat 32 c.1)).isSome)

/-- The memory of a state is as `memoryOk` says. -/
abbrev MemoryInv (s : State) : Prop := memoryOk s.params s.mem = true

/-- No unimplemented word has issued: the premise U1 suggests for claims about the original. -/
abbrev AllImplemented (s : State) : Prop := s.unimplementedSeen = false

/-- The four regions are pairwise disjoint (R41, D3). -/
def disjointRegions (p : Config.Params) : Bool :=
  let apart (a b : Config.Region) : Bool := a.last.toNat < b.base.toNat || b.last.toNat < a.base.toNat
  apart p.text p.data && apart p.text p.ktext && apart p.text p.kdata &&
    apart p.data p.ktext && apart p.data p.kdata && apart p.ktext p.kdata

/-- An empty pipe at a cycle boundary, about to fetch, not halted. -/
abbrev Quiet (s : State) : Prop :=
  s.nxt = s.cur ∧ s.ifId = Latch.clear ∧ s.idEx = Latch.clear ∧ s.exMem = Latch.clear ∧ s.memWb = Latch.clear ∧
  s.branchPending = false ∧ s.stall = 0 ∧ s.halted = false

/-- No instruction in Execute or Memory has a destination, so Decode meets no hazard (R93). -/
abbrev NoProducer (s : State) : Prop := s.exMem.regWrite = false ∧ s.memWb.regWrite = false

/-- The fetch of the instruction in `IF_ID` saw every store that is older in program order (outside the window of R53); `d` is
`drain s`. -/
abbrev FetchCoherent (s d : State) : Prop :=
  s.ifId = Latch.clear ∨ memRead32 d.params d.mem s.ifId.pc = s.ifId.ir

end Sys2Proof.Machine
end

