-- ==== Sys2Proof/Certificates/Slice0/Obligations.lean ====
section
/-! DEFINITION. The statements for the provers. `Sys2Proof.Statement` holds the words they are written in; `Obligations.<Name>` the
statements. A conclusion `∃ t, Passes i s t ∧ …` says that `exec i` answers a next state in each of the four stage units in
turn, and what the last one holds. -/

namespace Sys2Proof.Statement

open Sys2Proof Sys2Proof.Machine

/-- Decode, Execute, Memory and Writeback act on `i` in turn, with nothing else in between, each answering a next state;
`t` is the last (R102 item 1: Decode, then Execute, Memory and Writeback). -/
def Passes (i : Instr) (s t : State) : Prop :=
  ∃ s1 s2 s3, exec i (s.at .decode) = .next s1 ∧ exec i (s1.at .execute) = .next s2 ∧
    exec i (s2.at .memory) = .next s3 ∧ exec i (s3.at .writeback) = .next t

/-- `t` is `s` but for the latches the instruction went through, and `nxt`, which is `a`. Everything else is as it was: `cur`,
`IF_ID`, memory, the control state, the parameters. -/
def OnlyArch (s t : State) (a : Arch) : Prop :=
  t = { s with nxt := a, idEx := t.idEx, exMem := t.exMem, memWb := t.memWb, stage := t.stage }

/-- The one change is that general register `r` holds `v`. -/
def WritesOnly (s t : State) (r : Reg) (v : Word) : Prop := OnlyArch s t { s.nxt with x := writeReg s.nxt.x r v }

/-- A transfer to `target` is pending, `nxt` is `a`, and nothing else has changed. -/
def Transfers (s t : State) (a : Arch) (target : Word) : Prop :=
  t = { s with nxt := a, branchPending := true, branchTarget := target,
               idEx := t.idEx, exMem := t.exMem, memWb := t.memWb, stage := t.stage }

/-- A conditional branch: a pending transfer if `cond`, no change at all if not. -/
def BranchesIf (s t : State) (cond : Prop) (target : Word) : Prop :=
  (cond → Transfers s t s.nxt target) ∧ (¬cond → OnlyArch s t s.nxt)

/-- The word `w` is instruction `i`, and `i` passes, writing `v` to register `rd` and changing nothing else. -/
def RegisterRule (i : Instr) (w : Word) (s : State) (rd : Reg) (v : Word) : Prop :=
  decode w = .instr i ∧ ∃ t, Passes i s t ∧ WritesOnly s t rd v

/-- The target of a conditional branch held in `IF_ID`: its own address plus the offset times 4. -/
def branchGoal (s : State) (offset : Half) : Word := s.ifId.pc + (offset.signExtend 32 <<< 2)

/-- The word `w` is the branch `i`, and `i` passes, transferring to its target exactly if `cond`. -/
def BranchRule (i : Instr) (w : Word) (s : State) (cond : Prop) (offset : Half) : Prop :=
  decode w = .instr i ∧ ∃ t, Passes i s t ∧ BranchesIf s t cond (branchGoal s offset)

/-- The word `w` is the store `i` of `n` bytes of `v` at `ea`: `i` passes, in the stored bytes that lie in a region memory
reads as `v`, in every other byte as before, and nothing but memory has changed. -/
def StoreRule (i : Instr) (w : Word) (s : State) (ea v : Word) (n : Nat) : Prop :=
  decode w = .instr i ∧ ∃ t, Passes i s t ∧
    t = { s with mem := t.mem, idEx := t.idEx, exMem := t.exMem, memWb := t.memWb, stage := t.stage } ∧
    ∀ a : Word, byteRead s.params t.mem a =
      if (a - ea).toNat < n ∧ (regionOf s.params a).isSome = true then byteOfWord v (a - ea).toNat
      else byteRead s.params s.mem a

/-- R93: latch `l` writes the register `r`. -/
def Produces (l : Latch) (r : Reg) : Prop := l.regWrite = true ∧ l.registerRd = r

/-- R75, the sources read into `A`: the `rs` field of every instruction that reads `rs`. -/
def sourceA : Instr → Option Reg
  | .sll _ _ _ _ | .srl _ _ _ _ | .sra _ _ _ _ => none
  | i => (sourcesOf i).head?

/-- R75, column "`rt` value goes to": `B`. -/
def sourceB : Instr → Option Reg
  | .sll _ rt _ _ | .srl _ rt _ _ | .sra _ rt _ _ => some rt
  | .sb _ _ _ | .sh _ _ _ | .sw _ _ _ => none
  | i => (sourcesOf i)[1]?

/-- R75, column "`rt` value goes to": `StoreData`. -/
def sourceStore : Instr → Option Reg
  | .sb _ rt _ | .sh _ rt _ | .sw _ rt _ => some rt
  | _ => none

/-- R65: the instructions whose immediate is zero-extended. -/
def zeroExtends : Instr → Bool
  | .andi _ _ _ | .ori _ _ _ | .xori _ _ _ | .lui _ _ _ => true
  | _ => false

/-- R95: the value of source `r` with forwarding on, the younger producer first. -/
def forwardedValue (s : State) (r : Reg) : Word :=
  if s.exMem.regWrite = true ∧ s.exMem.registerRd = r then s.exMem.aluOutput
  else if s.memWb.regWrite = true ∧ s.memWb.registerRd = r then
    (if isLoadWord s.memWb.ir then s.memWb.lmd else s.memWb.aluOutput)
  else readReg s.nxt.x r

/-- The value a latch field gets from its source; a field without one is 0. -/
def fieldFrom (value : Reg → Word) : Option Reg → Word
  | none => 0
  | some r => value r

/-- R89, R90, R75, R65: the latch Decode issues for `i`, held in `IF_ID`, with the source values `value`. -/
def issuedFor (i : Instr) (s : State) (value : Reg → Word) : Latch :=
  { ir := s.ifId.ir, pc := s.ifId.pc,
    registerRs := rsField s.ifId.ir, registerRt := rtField s.ifId.ir, registerRd := (destOf i).getD 0,
    a := fieldFrom value (sourceA i), b := fieldFrom value (sourceB i), storeData := fieldFrom value (sourceStore i),
    imm := if zeroExtends i then (immField s.ifId.ir).zeroExtend 32 else (immField s.ifId.ir).signExtend 32,
    shamt := shamtField s.ifId.ir, target := indexField s.ifId.ir,
    aluOutput := 0, lmd := 0, regWrite := (destOf i).isSome }

/-- What the Execute unit of this cycle answers. -/
def executed (s : State) : State := settled s (executeUnit s)

/-- The word is a SYSCALL. -/
def IsSyscall (w : Word) : Prop := ∃ code, decode w = .instr (.syscall code)

/-- The state in which Decode runs in this cycle: after Writeback, Memory and Execute. -/
def beforeDecode (s : State) : State :=
  let s1 := settled s (writebackUnit s)
  let s2 := settled s1 (memoryUnit s1)
  settled s2 (executeUnit s2)

/-- The state in which Fetch runs in this cycle: what the Decode unit answers. -/
def beforeFetch (s : State) : State := settled (beforeDecode s) (decodeUnit (beforeDecode s))

/-- The state the five stage units leave to the commit. -/
def beforeCommit (s : State) : State := fetchUnit (beforeFetch s)

/-- R83: Writeback writes a register from this latch. -/
def WritesRegister (l : Latch) : Prop := l.ir ≠ 0 ∧ ¬IsSyscall l.ir ∧ l.regWrite = true

/-- R83: the value Writeback writes from this latch. -/
def writtenValue (l : Latch) : Word := if isLoadWord l.ir then l.lmd else l.aluOutput

/-- R194 to R196: how many bytes the word stores; 0 for a word that is no store. -/
def storeSize (w : Word) : Nat :=
  match decode w with
  | .instr (.sb _ _ _) => 1
  | .instr (.sh _ _ _) => 2
  | .instr (.sw _ _ _) => 4
  | _ => 0

/-- R30: the word writes both HI and LO. -/
def writesBoth (w : Word) : Bool :=
  match decode w with
  | .instr (.mult _ _ _ _) | .instr (.multu _ _ _ _) | .instr (.div _ _ _ _) | .instr (.divu _ _ _ _) => true
  | _ => false

/-- R30, R157: the word may write HI. -/
def writesHi (w : Word) : Bool :=
  writesBoth w || match decode w with
    | .instr (.mthi _ _ _ _) => true
    | _ => false

/-- R30, R158: the word may write LO. -/
def writesLo (w : Word) : Bool :=
  writesBoth w || match decode w with
    | .instr (.mtlo _ _ _ _) => true
    | _ => false

/-- R18: the word is a conditional branch or a jump. -/
def isTransfer (w : Word) : Bool :=
  match decode w with
  | .instr (.beq _ _ _) | .instr (.bne _ _ _) | .instr (.blez _ _ _) | .instr (.bgtz _ _ _) | .instr (.bltz _ _)
  | .instr (.bgez _ _) | .instr (.j _) | .instr (.jal _) | .instr (.jr _ _ _ _) | .instr (.jalr _ _ _ _) => true
  | _ => false

/-- `n` calls of `step()`. -/
def steps (n : Nat) (s : State) : Result := Host.Core.run Sys2Proof.core n s

end Sys2Proof.Statement

open Sys2Proof Sys2Proof.Machine Sys2Proof.Statement

/-! ### Reset and the host's operations -/

/-- R28: the state after power-on with any parameters, and after `reset()`; the first instruction fetched is the word at
`TEXT_BASE`. -/
def Obligations.ResetGivesTheListedValues : Prop :=
  (∀ p : Config.Params,
    let s := powerOn p
    s.cur.pc = p.text.base ∧ s.nxt.pc = p.text.base ∧
    (∀ r, readReg s.cur.x r = 0 ∧ readReg s.nxt.x r = 0) ∧
    s.cur.hi = 0 ∧ s.cur.lo = 0 ∧ s.nxt.hi = 0 ∧ s.nxt.lo = 0 ∧
    s.ifId = Latch.clear ∧ s.idEx = Latch.clear ∧ s.exMem = Latch.clear ∧ s.memWb = Latch.clear ∧
    s.halted = false ∧ s.branchPending = false ∧ s.branchTarget = 0 ∧ s.stall = 0 ∧
    s.unimplementedSeen = false ∧ s.cycleCount = 0 ∧ s.forwarding = p.forwardingReset ∧ s.mem = loadImage p ∧
    ∃ t, step s = .next t ∧ t.ifId.ir = memRead32 p (loadImage p) p.text.base ∧ t.ifId.pc = p.text.base) ∧
  (∀ s : State, hostReset s = { powerOn s.params with forwarding := s.forwarding })

/-- The model's `State.reset` is power-on with the recommended parameters of R7 and R49, and with the empty image: the model's
choice, log 1 to log 4. -/
def Obligations.ResetStateIsRecommendedPowerOn : Prop :=
  State.reset = powerOn recommendedParams ∧ State.reset.params.image = [] ∧ State.reset.mem = [] ∧
  State.reset.cur.pc = 0x00400000

/-- R240, R246: memory after the loader: a byte the image does not name is zero, a byte of a region that it names last is the
byte it delivers. -/
def Obligations.LoaderFillsZeroedMemory : Prop :=
  (∀ (p : Config.Params) (a : Word), (∀ c ∈ p.image, BitVec.ofNat 32 c.1 ≠ a) → byteRead p (loadImage p) a = 0) ∧
  (∀ (p : Config.Params) (before after : List (Nat × Byte)) (k : Nat) (b : Byte),
    p.image = before ++ (k, b) :: after → (∀ c ∈ after, BitVec.ofNat 32 c.1 ≠ BitVec.ofNat 32 k) →
    (regionOf p (BitVec.ofNat 32 k)).isSome = true → byteRead p (loadImage p) (BitVec.ofNat 32 k) = b)

/-- R27 at the model's reset state. -/
def Obligations.ResetStateSatisfiesInvariants : Prop := PipelineInv State.reset ∧ MemoryInv State.reset

/-- R27 at power-on and after `reset()`, for every choice of the open parameters. -/
def Obligations.EveryPowerOnSatisfiesInvariants : Prop :=
  (∀ p : Config.Params, PipelineInv (powerOn p) ∧ MemoryInv (powerOn p)) ∧
  (∀ s : State, PipelineInv (hostReset s) ∧ MemoryInv (hostReset s))

/-- R82, R248. -/
def Obligations.HaltedStepChangesNothing : Prop :=
  (∀ s : State, s.halted = true → step s = .next s ∧ hostStep s = .next (.alreadyHalted, s)) ∧
  (∀ s t : State, s.halted = false → step s = .next t → hostStep s = .next (.stepped, t))

/-- R249. -/
def Obligations.RunStopsEarlyOnlyIfHalted : Prop :=
  ∀ (n : Nat) (s : State), ∃ k t, hostRun n s = .next (k, t) ∧ k ≤ n ∧ (k < n → t.halted = true) ∧
    steps k s = .next t ∧ t.cycleCount = s.cycleCount + k

/-- R252, R20: the toggle changes the mode input alone, and the program-order state the pipeline stands for is not affected. -/
def Obligations.ForwardingToggleKeepsTheProgram : Prop :=
  ∀ (on : Bool) (s d : State), drain s = .next d →
    setForwarding on s = { s with forwarding := on } ∧
    ∃ d', drain (setForwarding on s) = .next d' ∧ programView (setForwarding on s) d' = programView s d

/-! ### The cycle -/

/-- R220: no word, operand or address stops the machine. -/
def Obligations.NothingFaultsOrRefuses : Prop :=
  (∀ (i : Instr) (s : State), ∃ t, exec i s = .next t) ∧ (∀ s : State, ∃ t, step s = .next t)

/-- R80, R81, R83 to R85, R88: one step runs `exec` on the instruction in each latch, in the order Writeback, Memory, Execute,
Decode, then Fetch, then the commit; Decode runs its instruction unless flushed or stalled. -/
def Obligations.StepRunsDecodedInstructions : Prop :=
  ∀ (s : State) (iw im ie id : Instr), s.halted = false →
    decode s.memWb.ir = .instr iw → decode s.exMem.ir = .instr im →
    decode s.idEx.ir = .instr ie → decode s.ifId.ir = .instr id →
    ∃ s1 s2 s3, exec iw (s.at .writeback) = .next s1 ∧ exec im (s1.at .memory) = .next s2 ∧
      exec ie (s2.at .execute) = .next s3 ∧
      (s3.branchPending = false → s3.stall = 0 → ∃ s4, exec id (s3.at .decode) = .next s4 ∧
        step s = .next (fetchUnit s4).commit) ∧
      (s3.branchPending = true ∨ 0 < s3.stall →
        step s = .next (fetchUnit ((s3.at .decode).setIdEx Latch.clear)).commit)

/-- R81, R20, R30: every executed cycle ends with `cur <- nxt`, `nxt` as the five units leave it, and with the cycle counted; no
cycle changes the mode input. That none changes `params` is about a field of the model's own, log 1. -/
def Obligations.CycleEndsWithCommit : Prop :=
  ∀ s t : State, s.halted = false → step s = .next t →
    t.cur = (beforeCommit s).nxt ∧ t.nxt = (beforeCommit s).nxt ∧ t.cycleCount = s.cycleCount + 1 ∧
    t.forwarding = s.forwarding ∧ t.params = s.params

/-- R30, with R83 and R84 for the conditions and the address: what each stage unit and the commit write, and when. -/
def Obligations.StageUnitsWriteOnlyTheirOwnState : Prop :=
  (∀ s t, writebackUnit s = .next t →
    t = { s with nxt := { s.nxt with x := t.nxt.x }, halted := t.halted, stage := t.stage } ∧
    (WritesRegister s.memWb → t.nxt.x = writeReg s.nxt.x s.memWb.registerRd (writtenValue s.memWb)) ∧
    (¬WritesRegister s.memWb → t.nxt.x = s.nxt.x) ∧
    (t.halted = true ↔ s.halted = true ∨ (IsSyscall s.memWb.ir ∧ readReg s.cur.x 2 = 10))) ∧
  (∀ s t, memoryUnit s = .next t →
    t = { s with memWb := t.memWb, mem := t.mem, stage := t.stage } ∧
    t.memWb = { s.exMem with lmd := t.memWb.lmd } ∧
    (0 < storeSize s.exMem.ir →
      t.mem = memWrite s.params s.mem s.exMem.aluOutput (storeSize s.exMem.ir) s.exMem.storeData) ∧
    (storeSize s.exMem.ir = 0 → t.mem = s.mem)) ∧
  (∀ s t, executeUnit s = .next t →
    t = { s with exMem := t.exMem, nxt := { s.nxt with hi := t.nxt.hi, lo := t.nxt.lo },
                 branchPending := t.branchPending, branchTarget := t.branchTarget, stage := t.stage } ∧
    t.exMem = { s.idEx with aluOutput := t.exMem.aluOutput } ∧
    (writesHi s.idEx.ir = false → t.nxt.hi = s.nxt.hi) ∧ (writesLo s.idEx.ir = false → t.nxt.lo = s.nxt.lo) ∧
    ((t.branchPending = s.branchPending ∧ t.branchTarget = s.branchTarget) ∨
      (isTransfer s.idEx.ir = true ∧ t.branchPending = true))) ∧
  (∀ s t, decodeUnit s = .next t →
    t = { s with idEx := t.idEx, stall := t.stall, unimplementedSeen := t.unimplementedSeen, stage := t.stage } ∧
    (t.stall = s.stall ∨ (s.stall = 0 ∧ (t.stall = 1 ∨ t.stall = 2) ∧ t.idEx = Latch.clear)) ∧
    (t.unimplementedSeen = s.unimplementedSeen ∨
      (t.unimplementedSeen = true ∧ decode s.ifId.ir = .unimplemented s.ifId.ir))) ∧
  (∀ s,
    fetchUnit s = { s with ifId := (fetchUnit s).ifId, nxt := { s.nxt with pc := (fetchUnit s).nxt.pc },
                           branchPending := false, stall := (fetchUnit s).stall } ∧
    (fetchUnit s).stall = if s.branchPending = true then 0 else s.stall - 1) ∧
  (∀ s : State, s.commit = { s with cur := s.nxt, cycleCount := s.cycleCount + 1, stage := .writeback })

/-- R98 to R100, R50, R53: after a cycle `IF_ID` is cleared by a taken transfer; without one, `IF_ID` and the PC are held exactly
if the stall counter is not zero when Fetch runs, and otherwise `IF_ID` holds the word at the old fetch address, read from memory
with the store of the same cycle in it. The counter Fetch finds is the one the cycle began with if that was not zero, and else
the stall Decode has just set. -/
def Obligations.FetchRedirectsHoldsOrReads : Prop :=
  ∀ s t : State, PipelineInv s → s.halted = false → step s = .next t →
    ((executed s).branchPending = true →
      t.ifId = Latch.clear ∧ t.cur.pc = (executed s).branchTarget ∧ t.branchPending = false ∧ t.stall = 0) ∧
    ((executed s).branchPending = false → 0 < (beforeFetch s).stall →
      t.ifId = s.ifId ∧ t.cur.pc = s.cur.pc ∧ t.stall = (beforeFetch s).stall - 1) ∧
    ((executed s).branchPending = false → (beforeFetch s).stall = 0 →
      t.ifId = { Latch.clear with ir := memRead32 t.params t.mem s.cur.pc, pc := s.cur.pc } ∧
      t.cur.pc = s.cur.pc + 4 ∧ t.stall = 0) ∧
    (0 < s.stall → (beforeFetch s).stall = s.stall) ∧
    (s.stall = 0 → 0 < (beforeFetch s).stall →
      ∃ i, decode s.ifId.ir = .instr i ∧ ∃ r ∈ sourcesOf i, Produces s.idEx r ∨ Produces s.exMem r)

/-! ### Encoding -/

/-- R74, R67 to R71: decoding the encoding of a well-formed instruction gives it back, every field at every value. -/
def Obligations.DecodeEncodeRoundTrip : Prop := ∀ i : Instr, WellFormed i → decode (encode i) = .instr i

/-- A word that decodes is the encoding of what it decodes to, so no bit of it is dropped. -/
def Obligations.EncodeUndoesDecode : Prop :=
  ∀ (w : Word) (i : Instr), decode w = .instr i → encode i = w ∧ WellFormed i

/-- R71, R74: the decoder answers the first row of the opcode table that the word matches, and UNIMP where none does. -/
def Obligations.DecodeFollowsOpcodeTable : Prop :=
  ∀ w : Word,
    match decode w with
    | .instr i => tableLookup w = some (mnemonic i)
    | .unimplemented v => tableLookup w = none ∧ v = w

/-- R60, R44: the four bytes of an instruction in memory order decode to it, whatever follows them. -/
def Obligations.DecodeBytesOfEncoding : Prop :=
  ∀ (i : Instr) (rest : List Byte), WellFormed i →
    decodeBytes (bytesOfWord (encode i) ++ rest) = some (.instr i, rest)

/-- Example words written out in the instruction rules. -/
def Obligations.DecodeExampleWords : Prop :=
  decode 0x00221820 = .instr (.add 1 2 3 0) ∧ decode 0x00021FC3 = .instr (.sra 0 2 3 31) ∧
  decode 0x24010005 = .instr (.addiu 0 1 5) ∧ decode 0x3C041001 = .instr (.lui 0 4 0x1001) ∧
  decode 0x0022001A = .instr (.div 1 2 0 0) ∧ decode 0x00001812 = .instr (.mflo 0 0 3 0) ∧
  decode 0x1422FFFE = .instr (.bne 1 2 0xFFFE) ∧ decode 0x0421FFFF = .instr (.bgez 1 0xFFFF) ∧
  decode 0x0C100008 = .instr (.jal 0x0100008) ∧ decode 0x00A0F809 = .instr (.jalr 5 0 31 0) ∧
  decode 0x8482FFFE = .instr (.lh 4 2 0xFFFE) ∧ decode 0xAC030000 = .instr (.sw 0 3 0) ∧
  decode 0x0000000C = .instr (.syscall 0) ∧ decode 0x00000000 = .instr .nop ∧
  decode 0x0000000D = .unimplemented 0x0000000D

/-! ### Memory -/

/-- R42, R43, R44, R46, R47: a write of 1, 2 or 4 bytes at any address, region edges and the wrap at 2^32 included, changes just
the bytes it names that lie in a region; reads assemble bytes with the lowest address least significant. -/
def Obligations.MemoryIsByteWiseLittleEndian : Prop :=
  (∀ (p : Config.Params) (m : Memory) (ea v a : Word) (n : Nat), m.wf = true → n = 1 ∨ n = 2 ∨ n = 4 →
    byteRead p (memWrite p m ea n v) a =
      if (a - ea).toNat < n ∧ (regionOf p a).isSome = true then byteOfWord v (a - ea).toNat else byteRead p m a) ∧
  (∀ (p : Config.Params) (m : Memory) (a : Word),
    (memRead8 p m a).toNat = (byteRead p m a).toNat ∧
    (memRead16 p m a).toNat = (byteRead p m a).toNat + 2 ^ 8 * (byteRead p m (a + 1)).toNat ∧
    (memRead32 p m a).toNat = (byteRead p m a).toNat + 2 ^ 8 * (byteRead p m (a + 1)).toNat +
      2 ^ 16 * (byteRead p m (a + 2)).toNat + 2 ^ 24 * (byteRead p m (a + 3)).toNat) ∧
  (∀ (p : Config.Params) (m : Memory) (a : Word) (b : Byte),
    regionOf p a = none → byteRead p m a = 0 ∧ byteWrite p m a b = m)

/-- Every step keeps the memory image in canonical form and inside the regions. -/
def Obligations.EveryStepKeepsMemoryCanonical : Prop :=
  ∀ s t : State, MemoryInv s → step s = .next t → MemoryInv t

/-! ### The pipeline as a whole -/

/-- R27: every step keeps the invariants of the cycle boundary. -/
def Obligations.EveryStepKeepsPipelineInvariant : Prop :=
  ∀ s t : State, PipelineInv s → step s = .next t → PipelineInv t

/-- R103, one cycle: the program-order state a pipeline state stands for (issued instructions finished, the next instruction
at `pc`) stays, or takes exactly one step of the sequential machine, in either forwarding mode and for any instructions in
flight. Two premises: the word in `IF_ID` is what memory holds there once the issued stores are done (the window of R53), and the
fetch address is not 0 (a NOP fetched at address 0 is `CLEAR`, so a state could not tell it from an empty `IF_ID`). -/
def Obligations.CycleRefinesSequentialMachine : Prop :=
  ∀ s t ds dt : State, PipelineInv s → s.halted = false → s.cur.pc ≠ 0 →
    step s = .next t → drain s = .next ds → drain t = .next dt → FetchCoherent s ds →
    programView t dt = programView s ds ∨ programView t dt = seqStep s.params (programView s ds)

/-- R103 for runs: after any number of cycles the pipeline stands for a state the sequential machine reaches. -/
def Obligations.RunRefinesSequentialMachine : Prop :=
  ∀ (n : Nat) (s t ds dt : State), PipelineInv s →
    (∀ m u du, m < n → steps m s = .next u → drain u = .next du → u.cur.pc ≠ 0 ∧ FetchCoherent u du) →
    steps n s = .next t → drain s = .next ds → drain t = .next dt →
    ∃ k ≤ n, programView t dt = seqSteps s.params k (programView s ds)

/-- R103's single-instruction case, and R210's halt: from an empty pipe, in five cycles, an instruction followed by two NOP words
leaves registers, HI, LO and memory as the direct evaluation does, in either forwarding mode. -/
def Obligations.SingleInstructionMatchesDirectEvaluation : Prop :=
  ∀ (s t : State) (i : Instr), Quiet s →
    decode (memRead32 s.params s.mem s.cur.pc) = .instr i →
    memRead32 s.params s.mem (s.cur.pc + 4) = 0 → memRead32 s.params s.mem (s.cur.pc + 8) = 0 →
    steps 5 s = .next t →
    let q := seqEffect s.params i { arch := s.cur, mem := s.mem }
    t.cur.x = q.arch.x ∧ t.cur.hi = q.arch.hi ∧ t.cur.lo = q.arch.lo ∧ t.mem = q.mem ∧
      t.halted = seqHalts s.params { arch := s.cur, mem := s.mem }

/-- R101: the sequential stage order and the clocked registers give the same next state. -/
def Obligations.StageOrderEqualsClockedHardware : Prop :=
  ∀ s : State, PipelineInv s → s.halted = false → step s = .next (clockedStep s)

/-- Every instruction, passing alone through the four units, has its "Architectural effect", and changes nothing else. -/
def Obligations.PassageHasArchitecturalEffect : Prop :=
  ∀ (i : Instr) (s : State), NoProducer s → s.nxt = s.cur → s.branchPending = false →
    let q := seqEffect s.params i { arch := { s.cur with pc := s.ifId.pc }, mem := s.mem }
    ∃ t, Passes i s t ∧
      t = { s with nxt := { q.arch with pc := s.nxt.pc }, mem := q.mem,
                   halted := t.halted, branchPending := t.branchPending, branchTarget := t.branchTarget,
                   idEx := t.idEx, exMem := t.exMem, memWb := t.memWb, stage := t.stage } ∧
      (if t.branchPending = true then t.branchTarget else s.ifId.pc + 4) = q.arch.pc ∧
      (t.halted = true ↔ s.halted = true ∨ (mnemonic i = "SYSCALL" ∧ readReg s.cur.x 2 = 10))

/-! ### ALU instructions -/

/-- R121 to R124. -/
def Obligations.AddAndSubtract : Prop :=
  ∀ (rs rt rd sh : Reg) (s : State), NoProducer s →
    let a := readReg s.nxt.x rs; let b := readReg s.nxt.x rt
    RegisterRule (.add rs rt rd sh) (0#6 ++ rs ++ rt ++ rd ++ sh ++ 0b100000#6) s rd (a + b) ∧
    RegisterRule (.addu rs rt rd sh) (0#6 ++ rs ++ rt ++ rd ++ sh ++ 0b100001#6) s rd (a + b) ∧
    RegisterRule (.sub rs rt rd sh) (0#6 ++ rs ++ rt ++ rd ++ sh ++ 0b100010#6) s rd (a - b) ∧
    RegisterRule (.subu rs rt rd sh) (0#6 ++ rs ++ rt ++ rd ++ sh ++ 0b100011#6) s rd (a - b)

/-- R125 to R128. -/
def Obligations.BitwiseLogic : Prop :=
  ∀ (rs rt rd sh : Reg) (s : State), NoProducer s →
    let a := readReg s.nxt.x rs; let b := readReg s.nxt.x rt
    RegisterRule (.and rs rt rd sh) (0#6 ++ rs ++ rt ++ rd ++ sh ++ 0b100100#6) s rd (a &&& b) ∧
    RegisterRule (.or rs rt rd sh) (0#6 ++ rs ++ rt ++ rd ++ sh ++ 0b100101#6) s rd (a ||| b) ∧
    RegisterRule (.xor rs rt rd sh) (0#6 ++ rs ++ rt ++ rd ++ sh ++ 0b100110#6) s rd (a ^^^ b) ∧
    RegisterRule (.nor rs rt rd sh) (0#6 ++ rs ++ rt ++ rd ++ sh ++ 0b100111#6) s rd (~~~(a ||| b))

/-- R129, R135: signed comparisons that produce the full word 0 or 1. -/
def Obligations.SignedCompare : Prop :=
  ∀ (rs rt rd sh : Reg) (imm : Half) (s : State), NoProducer s →
    let a := readReg s.nxt.x rs; let b := readReg s.nxt.x rt
    RegisterRule (.slt rs rt rd sh) (0#6 ++ rs ++ rt ++ rd ++ sh ++ 0b101010#6) s rd (if a.slt b then 1 else 0) ∧
    RegisterRule (.slti rs rt imm) (0b001010#6 ++ rs ++ rt ++ imm) s rt (if a.slt (imm.signExtend 32) then 1 else 0)

/-- R130 to R132: the count is the `shamt` field; the all-zero word is the NOP, not this SLL. SRA is the floor of the division of
the signed value by a power of two. -/
def Obligations.ShiftsByConstant : Prop :=
  ∀ (rs rt rd sh : Reg) (s : State), NoProducer s →
    let b := readReg s.nxt.x rt
    (WellFormed (.sll rs rt rd sh) →
      decode (0#6 ++ rs ++ rt ++ rd ++ sh ++ 0b000000#6) = .instr (.sll rs rt rd sh)) ∧
    (∃ t, Passes (.sll rs rt rd sh) s t ∧ WritesOnly s t rd (b <<< sh.toNat)) ∧
    RegisterRule (.srl rs rt rd sh) (0#6 ++ rs ++ rt ++ rd ++ sh ++ 0b000010#6) s rd (b >>> sh.toNat) ∧
    RegisterRule (.sra rs rt rd sh) (0#6 ++ rs ++ rt ++ rd ++ sh ++ 0b000011#6) s rd
      (BitVec.ofInt 32 (b.toInt / 2 ^ sh.toNat))

/-- R133, R134: the immediate is sign-extended in both. -/
def Obligations.AddImmediate : Prop :=
  ∀ (rs rt : Reg) (imm : Half) (s : State), NoProducer s →
    let v := readReg s.nxt.x rs + imm.signExtend 32
    RegisterRule (.addi rs rt imm) (0b001000#6 ++ rs ++ rt ++ imm) s rt v ∧
    RegisterRule (.addiu rs rt imm) (0b001001#6 ++ rs ++ rt ++ imm) s rt v

/-- R136 to R139: the immediate is zero-extended; LUI places it in the upper half. -/
def Obligations.LogicImmediateAndUpper : Prop :=
  ∀ (rs rt : Reg) (imm : Half) (s : State), NoProducer s →
    let a := readReg s.nxt.x rs
    RegisterRule (.andi rs rt imm) (0b001100#6 ++ rs ++ rt ++ imm) s rt (a &&& (0#16 ++ imm)) ∧
    RegisterRule (.ori rs rt imm) (0b001101#6 ++ rs ++ rt ++ imm) s rt (a ||| (0#16 ++ imm)) ∧
    RegisterRule (.xori rs rt imm) (0b001110#6 ++ rs ++ rt ++ imm) s rt (a ^^^ (0#16 ++ imm)) ∧
    RegisterRule (.lui rs rt imm) (0b001111#6 ++ rs ++ rt ++ imm) s rt (imm ++ 0#16)

/-! ### Multiply, divide, HI and LO -/

/-- R151, R152: the exact product, signed and unsigned. -/
def Obligations.ProductFillsHiAndLo : Prop :=
  ∀ (rs rt rd sh : Reg) (s : State), NoProducer s →
    let a := readReg s.nxt.x rs; let b := readReg s.nxt.x rt
    decode (0#6 ++ rs ++ rt ++ rd ++ sh ++ 0b011000#6) = .instr (.mult rs rt rd sh) ∧
    (∃ t, Passes (.mult rs rt rd sh) s t ∧ OnlyArch s t { s.nxt with hi := t.nxt.hi, lo := t.nxt.lo } ∧
      (t.nxt.hi ++ t.nxt.lo).toInt = a.toInt * b.toInt) ∧
    decode (0#6 ++ rs ++ rt ++ rd ++ sh ++ 0b011001#6) = .instr (.multu rs rt rd sh) ∧
    (∃ t, Passes (.multu rs rt rd sh) s t ∧ OnlyArch s t { s.nxt with hi := t.nxt.hi, lo := t.nxt.lo } ∧
      (t.nxt.hi ++ t.nxt.lo).toNat = a.toNat * b.toNat)

/-- R153, R160: quotient in LO, remainder in HI with the dividend's sign, nothing for a zero divisor, the parameter
`DIV_OVERFLOW_RESULT` for `-2^31 / -1`. -/
def Obligations.SignedDivision : Prop :=
  ∀ (rs rt rd sh : Reg) (s : State), NoProducer s →
    let a := readReg s.nxt.x rs; let b := readReg s.nxt.x rt
    decode (0#6 ++ rs ++ rt ++ rd ++ sh ++ 0b011010#6) = .instr (.div rs rt rd sh) ∧
    ∃ t, Passes (.div rs rt rd sh) s t ∧ OnlyArch s t { s.nxt with hi := t.nxt.hi, lo := t.nxt.lo } ∧
      (b = 0 → t.nxt.hi = s.nxt.hi ∧ t.nxt.lo = s.nxt.lo) ∧
      (a = 0x80000000 ∧ b = 0xFFFFFFFF → t.nxt.hi = s.params.divOverflowHi ∧ t.nxt.lo = s.params.divOverflowLo) ∧
      (b ≠ 0 ∧ ¬(a = 0x80000000 ∧ b = 0xFFFFFFFF) →
        a.toInt = t.nxt.lo.toInt * b.toInt + t.nxt.hi.toInt ∧
        t.nxt.hi.toInt.natAbs < b.toInt.natAbs ∧
        (t.nxt.hi.toInt = 0 ∨ t.nxt.hi.toInt.sign = a.toInt.sign))

/-- R154, R160: unsigned quotient in LO, remainder in HI, nothing for a zero divisor. -/
def Obligations.UnsignedDivision : Prop :=
  ∀ (rs rt rd sh : Reg) (s : State), NoProducer s →
    let a := readReg s.nxt.x rs; let b := readReg s.nxt.x rt
    decode (0#6 ++ rs ++ rt ++ rd ++ sh ++ 0b011011#6) = .instr (.divu rs rt rd sh) ∧
    ∃ t, Passes (.divu rs rt rd sh) s t ∧ OnlyArch s t { s.nxt with hi := t.nxt.hi, lo := t.nxt.lo } ∧
      (b = 0 → t.nxt.hi = s.nxt.hi ∧ t.nxt.lo = s.nxt.lo) ∧
      (b ≠ 0 → a.toNat = t.nxt.lo.toNat * b.toNat + t.nxt.hi.toNat ∧ t.nxt.hi.toNat < b.toNat)

/-- R155 to R158: the moves read the committed HI and LO and write the copy being written. -/
def Obligations.HiLoMoves : Prop :=
  ∀ (rs rt rd sh : Reg) (s : State), NoProducer s →
    RegisterRule (.mfhi rs rt rd sh) (0#6 ++ rs ++ rt ++ rd ++ sh ++ 0b010000#6) s rd s.cur.hi ∧
    RegisterRule (.mflo rs rt rd sh) (0#6 ++ rs ++ rt ++ rd ++ sh ++ 0b010010#6) s rd s.cur.lo ∧
    decode (0#6 ++ rs ++ rt ++ rd ++ sh ++ 0b010001#6) = .instr (.mthi rs rt rd sh) ∧
    (∃ t, Passes (.mthi rs rt rd sh) s t ∧ OnlyArch s t { s.nxt with hi := readReg s.nxt.x rs }) ∧
    decode (0#6 ++ rs ++ rt ++ rd ++ sh ++ 0b010011#6) = .instr (.mtlo rs rt rd sh) ∧
    (∃ t, Passes (.mtlo rs rt rd sh) s t ∧ OnlyArch s t { s.nxt with lo := readReg s.nxt.x rs })

/-! ### Branches and jumps -/

/-- R171, R172 with R170's common path. -/
def Obligations.BranchesOnEquality : Prop :=
  ∀ (rs rt : Reg) (offset : Half) (s : State), NoProducer s →
    let a := readReg s.nxt.x rs; let b := readReg s.nxt.x rt
    BranchRule (.beq rs rt offset) (0b000100#6 ++ rs ++ rt ++ offset) s (a = b) offset ∧
    BranchRule (.bne rs rt offset) (0b000101#6 ++ rs ++ rt ++ offset) s (a ≠ b) offset

/-- R173 to R176 with R170's common path; each condition both as a comparison of signed values and by bit 31. -/
def Obligations.BranchesOnSign : Prop :=
  ∀ (rs rt : Reg) (offset : Half) (s : State), NoProducer s →
    let a := readReg s.nxt.x rs
    BranchRule (.blez rs rt offset) (0b000110#6 ++ rs ++ rt ++ offset) s (a.msb = true ∨ a = 0) offset ∧
    BranchRule (.bgtz rs rt offset) (0b000111#6 ++ rs ++ rt ++ offset) s (a.msb = false ∧ a ≠ 0) offset ∧
    BranchRule (.bltz rs offset) (0b000001#6 ++ rs ++ 0b00000#5 ++ offset) s (a.msb = true) offset ∧
    BranchRule (.bgez rs offset) (0b000001#6 ++ rs ++ 0b00001#5 ++ offset) s (a.msb = false) offset ∧
    ((a.msb = true ∨ a = 0) ↔ a.toInt ≤ 0) ∧ ((a.msb = false ∧ a ≠ 0) ↔ 0 < a.toInt) ∧
    (a.msb = true ↔ a.toInt < 0) ∧ (a.msb = false ↔ 0 ≤ a.toInt)

/-- R177, R178: always taken, within the 256 MiB region of the jump's own address; JAL links to register 31. -/
def Obligations.JumpsToRegionTarget : Prop :=
  ∀ (index : BitVec 26) (s : State), NoProducer s →
    let goal : Word := s.ifId.pc.extractLsb' 28 4 ++ index ++ 0b00#2
    decode (0b000010#6 ++ index) = .instr (.j index) ∧
    (∃ t, Passes (.j index) s t ∧ Transfers s t s.nxt goal) ∧
    decode (0b000011#6 ++ index) = .instr (.jal index) ∧
    (∃ t, Passes (.jal index) s t ∧ Transfers s t { s.nxt with x := writeReg s.nxt.x 31 (s.ifId.pc + 4) } goal)

/-- R179, R180: the target is the old value of the register, also where JALR links to the same register; register 0 is
linked to like any other. -/
def Obligations.JumpsToRegister : Prop :=
  ∀ (rs rt rd sh : Reg) (s : State), NoProducer s →
    decode (0#6 ++ rs ++ rt ++ rd ++ sh ++ 0b001000#6) = .instr (.jr rs rt rd sh) ∧
    (∃ t, Passes (.jr rs rt rd sh) s t ∧ Transfers s t s.nxt (readReg s.nxt.x rs)) ∧
    decode (0#6 ++ rs ++ rt ++ rd ++ sh ++ 0b001001#6) = .instr (.jalr rs rt rd sh) ∧
    (∃ t, Passes (.jalr rs rt rd sh) s t ∧
      Transfers s t { s.nxt with x := writeReg s.nxt.x rd (s.ifId.pc + 4) } (readReg s.nxt.x rs))

/-! ### Loads and stores -/

/-- R191 to R193: any address, aligned or not; LB and LH sign-extend. -/
def Obligations.LoadsFillTheRegister : Prop :=
  ∀ (rs rt : Reg) (offset : Half) (s : State), NoProducer s →
    let ea := readReg s.nxt.x rs + offset.signExtend 32
    RegisterRule (.lb rs rt offset) (0b100000#6 ++ rs ++ rt ++ offset) s rt
      ((memRead8 s.params s.mem ea).signExtend 32) ∧
    RegisterRule (.lh rs rt offset) (0b100001#6 ++ rs ++ rt ++ offset) s rt
      ((memRead16 s.params s.mem ea).signExtend 32) ∧
    RegisterRule (.lw rs rt offset) (0b100011#6 ++ rs ++ rt ++ offset) s rt (memRead32 s.params s.mem ea)

/-- R194 to R196, with R46 for the bytes outside every region. -/
def Obligations.StoresChangeOnlyTheirBytes : Prop :=
  ∀ (rs rt : Reg) (offset : Half) (s : State), NoProducer s → s.mem.wf = true →
    let ea := readReg s.nxt.x rs + offset.signExtend 32
    let v := readReg s.nxt.x rt
    StoreRule (.sb rs rt offset) (0b101000#6 ++ rs ++ rt ++ offset) s ea v 1 ∧
    StoreRule (.sh rs rt offset) (0b101001#6 ++ rs ++ rt ++ offset) s ea v 2 ∧
    StoreRule (.sw rs rt offset) (0b101011#6 ++ rs ++ rt ++ offset) s ea v 4

/-- R84, R190: in the Memory unit a store of `n` bytes goes to the address in `EX_MEM.ALUOutput`, whatever else is in flight. -/
def Obligations.StoreUnitWritesAtAluOutput : Prop :=
  ∀ (rs rt : Reg) (offset : Half) (s : State), s.mem.wf = true →
    ∀ i n, (i, n) ∈ [(Instr.sb rs rt offset, 1), (Instr.sh rs rt offset, 2), (Instr.sw rs rt offset, 4)] →
      ∃ t, exec i (s.at .memory) = .next t ∧
        t = { s with mem := t.mem, memWb := s.exMem, stage := .memory } ∧
        ∀ a : Word, byteRead s.params t.mem a =
          if (a - s.exMem.aluOutput).toNat < n ∧ (regionOf s.params a).isSome = true
          then byteOfWord s.exMem.storeData (a - s.exMem.aluOutput).toNat else byteRead s.params s.mem a

/-! ### SYSCALL, NOP, unimplemented words -/

/-- R210: a SYSCALL changes `halted` alone, and only with service code 10 in the committed register 2. -/
def Obligations.SyscallHaltsOnCodeTen : Prop :=
  ∀ (code : BitVec 20) (s : State),
    decode (0#6 ++ code ++ 0b001100#6) = .instr (.syscall code) ∧
    ∃ t, Passes (.syscall code) s t ∧
      t = { s with halted := t.halted, idEx := t.idEx, exMem := t.exMem, memWb := t.memWb, stage := t.stage } ∧
      (t.halted = true ↔ s.halted = true ∨ readReg s.cur.x 2 = 10)

/-- R211, R22: the NOP leaves bubbles behind and changes nothing else, whatever is in flight. -/
def Obligations.NopLeavesBubbles : Prop :=
  decode 0 = .instr .nop ∧
  ∀ s : State, ∃ t, Passes .nop s t ∧
    t = { s with idEx := Latch.clear, exMem := Latch.clear, memWb := Latch.clear, stage := t.stage } ∧
    (s.stall = 0 → s.branchPending = false → s.ifId.ir = 0 →
      ∃ u, decodeUnit s = .next u ∧ u = { s with idEx := Latch.clear, stage := u.stage })

/-- R212, R89: an unimplemented word is reported when it issues, reads nothing, never stalls, writes nothing, and travels on. -/
def Obligations.UnimplementedWordIsReportedNoOp : Prop :=
  (∀ s w, decode s.ifId.ir = .unimplemented w → s.branchPending = false → s.stall = 0 →
    decodeUnit s = .next { s with
      unimplementedSeen := true, stage := .decode,
      idEx := { Latch.clear with
        ir := s.ifId.ir, pc := s.ifId.pc, registerRs := rsField s.ifId.ir, registerRt := rtField s.ifId.ir,
        imm := (immField s.ifId.ir).signExtend 32, shamt := shamtField s.ifId.ir, target := indexField s.ifId.ir } }) ∧
  (∀ s w, decode s.idEx.ir = .unimplemented w → executeUnit s = .next { s with exMem := s.idEx, stage := .execute }) ∧
  (∀ s w, decode s.exMem.ir = .unimplemented w → memoryUnit s = .next { s with memWb := s.exMem, stage := .memory }) ∧
  (∀ s w, decode s.memWb.ir = .unimplemented w → s.memWb.regWrite = false →
    writebackUnit s = .next { s with stage := .writeback })

/-- R25: the flag is set only in a cycle in which an unimplemented word issues, no cycle clears it, and
`reset()` does. -/
def Obligations.UnimplementedSeenIsSticky : Prop :=
  ∀ s t : State, s.halted = false → step s = .next t →
    (t.unimplementedSeen = true ↔ s.unimplementedSeen = true ∨
      ((∃ w, decode s.ifId.ir = .unimplemented w) ∧ s.stall = 0 ∧ (executed s).branchPending = false)) ∧
    (hostReset s).unimplementedSeen = false

/-- R17: a cycle sets `halted` exactly if it retires a SYSCALL while `cur.x[2] == 10`; no step clears it, and
`reset()` does. -/
def Obligations.HaltExactlyBySyscall : Prop :=
  (∀ s t : State, s.halted = false → step s = .next t →
    (t.halted = true ↔ IsSyscall s.memWb.ir ∧ readReg s.cur.x 2 = 10)) ∧
  (∀ s : State, s.halted = true → step s = .next s) ∧ (∀ s : State, (hostReset s).halted = false)

/-- R255: in the halting cycle a store right behind the SYSCALL is performed, the instruction two behind it executes (it writes HI
and LO, or redirects the PC), no register is written, and from then on nothing changes. -/
def Obligations.HaltingCycleFinishesTheStages : Prop :=
  ∀ s t : State, PipelineInv s → s.halted = false → IsSyscall s.memWb.ir → readReg s.cur.x 2 = 10 → step s = .next t →
    t.halted = true ∧ t.cur.x = s.cur.x ∧ t.cycleCount = s.cycleCount + 1 ∧
    t.cur.hi = (executed s).nxt.hi ∧ t.cur.lo = (executed s).nxt.lo ∧
    (∀ rs rt offset, decode s.exMem.ir = .instr (.sb rs rt offset) →
      t.mem = memWrite s.params s.mem s.exMem.aluOutput 1 s.exMem.storeData) ∧
    (∀ rs rt offset, decode s.exMem.ir = .instr (.sh rs rt offset) →
      t.mem = memWrite s.params s.mem s.exMem.aluOutput 2 s.exMem.storeData) ∧
    (∀ rs rt offset, decode s.exMem.ir = .instr (.sw rs rt offset) →
      t.mem = memWrite s.params s.mem s.exMem.aluOutput 4 s.exMem.storeData) ∧
    (storeSize s.exMem.ir = 0 → t.mem = s.mem) ∧
    (∀ rs rt rd sh, decode s.idEx.ir = .instr (.mult rs rt rd sh) →
      (t.cur.hi ++ t.cur.lo).toInt = s.idEx.a.toInt * s.idEx.b.toInt) ∧
    (∀ rs rt rd sh, decode s.idEx.ir = .instr (.multu rs rt rd sh) →
      (t.cur.hi ++ t.cur.lo).toNat = s.idEx.a.toNat * s.idEx.b.toNat) ∧
    ((executed s).branchPending = true → t.cur.pc = (executed s).branchTarget) ∧
    step t = .next t

/-! ### Decode, hazards, stalls, the flush -/

/-- R75, R89, R90, R97, R65, R92: with no producer in Execute or Memory, Decode issues every instruction but the NOP with exactly
the latch the tables give, its sources read from the write-first register file. -/
def Obligations.DecodeIssuesByTheTable : Prop :=
  ∀ (i : Instr) (s : State), i ≠ .nop → s.ifId.ir = encode i → NoProducer s →
    exec i (s.at .decode) = .next { s with stage := .decode, idEx := issuedFor i s (readReg s.nxt.x) }

/-- R94: forwarding disabled. A source written by the instruction in `EX_MEM` stalls 2 cycles, else one written by the instruction
in `MEM_WB` stalls 1; without either the instruction issues with values of the register file. Register 0 is no exception. -/
def Obligations.StallsWithForwardingDisabled : Prop :=
  ∀ (i : Instr) (s : State), s.forwarding = false →
    ((∃ r ∈ sourcesOf i, Produces s.exMem r) →
      exec i (s.at .decode) = .next { s with stage := .decode, stall := 2, idEx := Latch.clear }) ∧
    ((∀ r ∈ sourcesOf i, ¬Produces s.exMem r) → (∃ r ∈ sourcesOf i, Produces s.memWb r) →
      exec i (s.at .decode) = .next { s with stage := .decode, stall := 1, idEx := Latch.clear }) ∧
    ((∀ r ∈ sourcesOf i, ¬Produces s.exMem r ∧ ¬Produces s.memWb r) → i ≠ .nop → s.ifId.ir = encode i →
      exec i (s.at .decode) = .next { s with stage := .decode, idEx := issuedFor i s (readReg s.nxt.x) })

/-- R95, R93: forwarding enabled. A source written by a load in `EX_MEM` stalls 1 cycle; otherwise the instruction issues, each
source taken from the youngest producer: `EX_MEM.ALUOutput`, then `MEM_WB.LMD` or `MEM_WB.ALUOutput`, then the register file. -/
def Obligations.ForwardsWithForwardingEnabled : Prop :=
  ∀ (i : Instr) (s : State), s.forwarding = true →
    ((∃ r ∈ sourcesOf i, Produces s.exMem r) → isLoadWord s.exMem.ir = true →
      exec i (s.at .decode) = .next { s with stage := .decode, stall := 1, idEx := Latch.clear }) ∧
    ((∀ r ∈ sourcesOf i, ¬Produces s.exMem r) ∨ isLoadWord s.exMem.ir = false → i ≠ .nop → s.ifId.ir = encode i →
      exec i (s.at .decode) = .next { s with stage := .decode, idEx := issuedFor i s (forwardedValue s) })

/-- R197, R260, distance 1: the instruction in `IF_ID` reads the destination of the instruction about to execute. Forwarding
disabled: exactly 2 cycles pass before it issues. Enabled: exactly 1 behind a load, none behind any other producer. -/
def Obligations.ConsumerDirectlyBehindProducer : Prop :=
  ∀ (s t1 t2 t3 : State) (i : Instr), PipelineInv s → s.halted = false → s.stall = 0 →
    decode s.ifId.ir = .instr i → (∃ r ∈ sourcesOf i, Produces s.idEx r) → (executed s).branchPending = false →
    ¬IsSyscall s.memWb.ir → ¬IsSyscall s.exMem.ir →
    step s = .next t1 → step t1 = .next t2 → step t2 = .next t3 →
    (s.forwarding = false →
      t1.idEx = Latch.clear ∧ t1.ifId = s.ifId ∧ t2.idEx = Latch.clear ∧ t2.ifId = s.ifId ∧ t3.idEx.ir = s.ifId.ir) ∧
    (s.forwarding = true → isLoadWord s.idEx.ir = true →
      t1.idEx = Latch.clear ∧ t1.ifId = s.ifId ∧ t2.idEx.ir = s.ifId.ir) ∧
    (s.forwarding = true → isLoadWord s.idEx.ir = false → t1.idEx.ir = s.ifId.ir)

/-- R197, R260, distance 2: only the instruction in Memory writes a source. Forwarding disabled: exactly 1 cycle passes. Enabled:
none, and every operand it writes, in `A`, `B` or `StoreData`, is the loaded value or the ALU result of that instruction. -/
def Obligations.ConsumerTwoBehindProducer : Prop :=
  ∀ (s t1 t2 : State) (i : Instr), PipelineInv s → s.halted = false → s.stall = 0 →
    decode s.ifId.ir = .instr i → (∃ r ∈ sourcesOf i, Produces s.exMem r) →
    (∀ r ∈ sourcesOf i, ¬Produces s.idEx r) → (executed s).branchPending = false → ¬IsSyscall s.memWb.ir →
    step s = .next t1 → step t1 = .next t2 →
    (s.forwarding = false → t1.idEx = Latch.clear ∧ t1.ifId = s.ifId ∧ t2.idEx.ir = s.ifId.ir) ∧
    (s.forwarding = true → t1.idEx.ir = s.ifId.ir ∧
      let v := if isLoadWord s.exMem.ir then t1.memWb.lmd else s.exMem.aluOutput
      ∀ r, Produces s.exMem r →
        (sourceA i = some r → t1.idEx.a = v) ∧ (sourceB i = some r → t1.idEx.b = v) ∧
        (sourceStore i = some r → t1.idEx.storeData = v))

/-- R182, R88, R98: a taken transfer costs exactly the two younger slots, which have no effect; an untaken branch costs none. -/
def Obligations.TakenTransferFlushesTwoSlots : Prop :=
  (∀ s t : State, PipelineInv s → s.halted = false → (executed s).branchPending = true → step s = .next t →
    t.exMem.ir = s.idEx.ir ∧ t.idEx = Latch.clear ∧ t.ifId = Latch.clear ∧
    t.cur.pc = (executed s).branchTarget ∧ t.branchPending = false ∧ t.stall = 0 ∧
    t.unimplementedSeen = s.unimplementedSeen ∧
    ∀ u, t.halted = false → step t = .next u →
      u.exMem = Latch.clear ∧ u.idEx = Latch.clear ∧ u.ifId.pc = (executed s).branchTarget ∧
      u.cur.pc = (executed s).branchTarget + 4) ∧
  (∀ s t : State, PipelineInv s → s.halted = false → (executed s).branchPending = false → s.idEx.ir ≠ 0 →
    s.idEx.regWrite = false → s.exMem.regWrite = false → step s = .next t →
    t.idEx.ir = s.ifId.ir ∧ t.ifId.pc = s.cur.pc ∧ t.cur.pc = s.cur.pc + 4)

/-- R159: an MFHI or MFLO directly behind a writer of HI and LO issues without a stall and reads the new value. -/
def Obligations.HiLoNeedsNoInterlock : Prop :=
  ∀ (s t1 t2 : State) (rs rt rd sh : Reg), PipelineInv s → s.halted = false → s.stall = 0 →
    (executed s).branchPending = false → ¬IsSyscall s.memWb.ir → step s = .next t1 → step t1 = .next t2 →
    (decode s.ifId.ir = .instr (.mfhi rs rt rd sh) →
      t1.idEx.ir = s.ifId.ir ∧ t2.exMem.ir = s.ifId.ir ∧ t2.exMem.aluOutput = (executed s).nxt.hi) ∧
    (decode s.ifId.ir = .instr (.mflo rs rt rd sh) →
      t1.idEx.ir = s.ifId.ir ∧ t2.exMem.ir = s.ifId.ir ∧ t2.exMem.aluOutput = (executed s).nxt.lo)
end

