-- ==== Sys2Proof/Laws/Decode.lean ====
section
/-! SUPPORT. The fields of an encoded word, one lemma per field and layout (R61 to R64), and the opcode masks over a layout. -/

namespace Sys2Proof

/-- Reading a field of a concatenation inside its high part, then inside its low part. -/
theorem field_of_append {v w : Nat} {hi : BitVec v} {lo : BitVec w} {start len : Nat} :
    (w ≤ start → (hi ++ lo).extractLsb' start len = hi.extractLsb' (start - w) len) ∧
    (start + len ≤ w → (hi ++ lo).extractLsb' start len = lo.extractLsb' start len) :=
  ⟨BitVec.extractLsb'_append_eq_of_le, BitVec.extractLsb'_append_eq_of_add_le⟩

section RType
variable (rs rt rd shamt : Reg) (funct : BitVec 6)

@[simp] theorem opcodeField_encodeR : opcodeField (encodeR rs rt rd shamt funct) = 0#6 := by
  simp (disch := omega) only [opcodeField, encodeR, field_of_append.1, Nat.reduceSub, BitVec.extractLsb'_eq_self]
@[simp] theorem rsField_encodeR : rsField (encodeR rs rt rd shamt funct) = rs := by
  simp (disch := omega) only [rsField, encodeR, field_of_append.1, Nat.reduceSub, field_of_append.2, BitVec.extractLsb'_eq_self]
@[simp] theorem rtField_encodeR : rtField (encodeR rs rt rd shamt funct) = rt := by
  simp (disch := omega) only [rtField, encodeR, field_of_append.1, Nat.reduceSub, field_of_append.2, BitVec.extractLsb'_eq_self]
@[simp] theorem rdField_encodeR : rdField (encodeR rs rt rd shamt funct) = rd := by
  simp (disch := omega) only [rdField, encodeR, field_of_append.1, Nat.reduceSub, field_of_append.2, BitVec.extractLsb'_eq_self]
@[simp] theorem shamtField_encodeR : shamtField (encodeR rs rt rd shamt funct) = shamt := by
  simp (disch := omega) only [shamtField, encodeR, field_of_append.1, Nat.reduceSub, field_of_append.2, BitVec.extractLsb'_eq_self]
@[simp] theorem functField_encodeR : functField (encodeR rs rt rd shamt funct) = funct := by
  simp (disch := omega) only [functField, encodeR, field_of_append.2, BitVec.extractLsb'_eq_self]

end RType

section IType
variable (opcode : BitVec 6) (rs rt : Reg) (imm : Half)

@[simp] theorem opcodeField_encodeI : opcodeField (encodeI opcode rs rt imm) = opcode := by
  simp (disch := omega) only [opcodeField, encodeI, field_of_append.1, Nat.reduceSub, BitVec.extractLsb'_eq_self]
@[simp] theorem rsField_encodeI : rsField (encodeI opcode rs rt imm) = rs := by
  simp (disch := omega) only [rsField, encodeI, field_of_append.1, Nat.reduceSub, field_of_append.2, BitVec.extractLsb'_eq_self]
@[simp] theorem rtField_encodeI : rtField (encodeI opcode rs rt imm) = rt := by
  simp (disch := omega) only [rtField, encodeI, field_of_append.1, Nat.reduceSub, field_of_append.2, BitVec.extractLsb'_eq_self]
@[simp] theorem immField_encodeI : immField (encodeI opcode rs rt imm) = imm := by
  simp (disch := omega) only [immField, encodeI, field_of_append.2, BitVec.extractLsb'_eq_self]

end IType

section JType
variable (opcode : BitVec 6) (index : BitVec 26)

@[simp] theorem opcodeField_encodeJ : opcodeField (encodeJ opcode index) = opcode := by
  simp (disch := omega) only [opcodeField, encodeJ, field_of_append.1, Nat.reduceSub, BitVec.extractLsb'_eq_self]
@[simp] theorem indexField_encodeJ : indexField (encodeJ opcode index) = index := by
  simp (disch := omega) only [indexField, encodeJ, field_of_append.2, BitVec.extractLsb'_eq_self]

end JType

section Syscall
variable (code : BitVec 20)

@[simp] theorem opcodeField_syscall : opcodeField (encode (.syscall code)) = 0#6 := by
  simp (disch := omega) only [encode, opcodeField, field_of_append.1, Nat.reduceSub, BitVec.extractLsb'_eq_self]
@[simp] theorem codeField_syscall : codeField (encode (.syscall code)) = code := by
  simp (disch := omega) only [encode, codeField, field_of_append.1, Nat.reduceSub, field_of_append.2,
    BitVec.extractLsb'_eq_self]
@[simp] theorem functField_syscall : functField (encode (.syscall code)) = 0x0C#6 := by
  simp (disch := omega) only [encode, functField, field_of_append.2, BitVec.extractLsb'_eq_self]

end Syscall

/-- A word with a field that is not 0 is not the NOP. -/
theorem ne_zero_of_opcodeField {w : Word} (h : opcodeField w ≠ 0#6) : w ≠ 0#32 := by
  rintro rfl; exact h (by decide)

theorem ne_zero_of_functField {w : Word} (h : functField w ≠ 0#6) : w ≠ 0#32 := by
  rintro rfl; exact h (by decide)

/-! ### The masks of the opcode table -/

theorem encodeR_mask (rs rt rd shamt : Reg) (funct : BitVec 6) :
    encodeR rs rt rd shamt funct &&& 0xFC00003F = 0#26 ++ funct := by
  have h : (0#6 ++ rs ++ rt ++ rd ++ shamt ++ funct) &&& (0x3F#6 ++ 0#5 ++ 0#5 ++ 0#5 ++ 0#5 ++ 0x3F#6) =
      0#6 ++ 0#5 ++ 0#5 ++ 0#5 ++ 0#5 ++ funct := by
    simp only [BitVec.and_append, BitVec.and_zero, show 0x3F#6 = BitVec.allOnes 6 by rfl,
      BitVec.and_allOnes]
  exact h

theorem encodeI_mask (opcode : BitVec 6) (rs rt : Reg) (imm : Half) :
    encodeI opcode rs rt imm &&& 0xFC000000 = opcode ++ 0#5 ++ 0#5 ++ 0#16 := by
  have h : (opcode ++ rs ++ rt ++ imm) &&& (0x3F#6 ++ 0#5 ++ 0#5 ++ 0#16) = opcode ++ 0#5 ++ 0#5 ++ 0#16 := by
    simp only [BitVec.and_append, BitVec.and_zero, show 0x3F#6 = BitVec.allOnes 6 by rfl,
      BitVec.and_allOnes]
  exact h

theorem encodeI_mask_rt (opcode : BitVec 6) (rs rt : Reg) (imm : Half) :
    encodeI opcode rs rt imm &&& 0xFC1F0000 = opcode ++ 0#5 ++ rt ++ 0#16 := by
  have h : (opcode ++ rs ++ rt ++ imm) &&& (0x3F#6 ++ 0#5 ++ 0x1F#5 ++ 0#16) = opcode ++ 0#5 ++ rt ++ 0#16 := by
    simp only [BitVec.and_append, BitVec.and_zero, show 0x1F#5 = BitVec.allOnes 5 by rfl, show 0x3F#6 = BitVec.allOnes 6 by rfl,
      BitVec.and_allOnes]
  exact h

theorem encodeJ_mask (opcode : BitVec 6) (index : BitVec 26) :
    encodeJ opcode index &&& 0xFC000000 = opcode ++ 0#26 := by
  have h : (opcode ++ index) &&& (0x3F#6 ++ 0#26) = opcode ++ 0#26 := by
    simp only [BitVec.and_append, BitVec.and_zero, show 0x3F#6 = BitVec.allOnes 6 by rfl,
      BitVec.and_allOnes]
  exact h

theorem syscall_mask (code : BitVec 20) : encode (.syscall code) &&& 0xFC00003F = 0x0C := by
  have h : (0#6 ++ code ++ 0x0C#6) &&& (0x3F#6 ++ 0#20 ++ 0x3F#6) = 0#6 ++ 0#20 ++ 0x0C#6 := by
    simp only [BitVec.and_append, BitVec.and_zero, show 0x3F#6 = BitVec.allOnes 6 by rfl,
      BitVec.and_allOnes]
  exact h

end Sys2Proof
end

