-- ==== Sys2Proof/Laws/Memory.lean ====
section
/-! SUPPORT. The memory image: a read after a write, and that every operation keeps the canonical form and the regions. -/

namespace Sys2Proof.Machine

/-! ### The list of cells -/

theorem Memory.wfFrom_mono {lo lo' : Nat} (h : lo' ≤ lo) : ∀ {m : Memory}, m.wfFrom lo = true → m.wfFrom lo' = true
  | [], _ => rfl
  | (k, c) :: rest, hm => by
    simp only [Memory.wfFrom, Bool.and_eq_true, decide_eq_true_eq] at hm ⊢
    exact ⟨⟨h.trans hm.1.1, hm.1.2⟩, hm.2⟩

/-- An address below the listed ones is unlisted. -/
theorem Memory.read_eq_unlisted {lo : Nat} : ∀ {m : Memory} {a : Nat}, m.wfFrom lo = true → a < lo →
    m.read a = unlistedByte
  | [], _, _, _ => rfl
  | (k, c) :: rest, a, hm, ha => by
    simp only [Memory.wfFrom, Bool.and_eq_true, decide_eq_true_eq] at hm
    rw [Memory.read, if_neg (by omega)]
    exact Memory.read_eq_unlisted hm.2 (by omega)

/-- Writing keeps the canonical form. -/
theorem Memory.write_wfFrom {lo : Nat} : ∀ {m : Memory} {a : Nat} (b : Byte), m.wfFrom lo = true → lo ≤ a →
    (m.write a b).wfFrom lo = true
  | [], a, b, _, ha => by
    simp only [Memory.write]; split <;> simp_all [Memory.wfFrom]
  | (k, c) :: rest, a, b, hm, ha => by
    have hm' := hm
    simp only [Memory.wfFrom, Bool.and_eq_true, decide_eq_true_eq] at hm
    simp only [Memory.write]
    split
    · split
      · exact hm'
      · simp only [Memory.wfFrom, Bool.and_eq_true, decide_eq_true_eq]
        exact ⟨⟨ha, by simpa⟩, ⟨by omega, hm.1.2⟩, hm.2⟩
    · split
      · split
        · exact Memory.wfFrom_mono (by omega) hm.2
        · simp only [Memory.wfFrom, Bool.and_eq_true, decide_eq_true_eq]
          exact ⟨⟨ha, by simpa⟩, by simp_all⟩
      · simp only [Memory.wfFrom, Bool.and_eq_true, decide_eq_true_eq]
        exact ⟨hm.1, Memory.write_wfFrom b hm.2 (by omega)⟩

theorem Memory.write_wf {m : Memory} (a : Nat) (b : Byte) (h : m.wf = true) : (m.write a b).wf = true :=
  Memory.write_wfFrom b h (Nat.zero_le _)

/-- A read after a write: the address written reads as the byte, every other address as before. -/
theorem Memory.read_write_from {lo : Nat} : ∀ {m : Memory} (a k : Nat) (b : Byte), m.wfFrom lo = true →
    (m.write a b).read k = if k = a then b else m.read k
  | [], a, k, b, _ => by
    by_cases hk : k = a
    · subst hk; simp only [Memory.write]; split <;> simp [Memory.read, *]
    · simp only [Memory.write]; split <;> simp [Memory.read, Ne.symm hk]
  | (j, c) :: rest, a, k, b, hm => by
    simp only [Memory.wfFrom, Bool.and_eq_true, decide_eq_true_eq] at hm
    simp only [Memory.write]
    split
    · have hu : a < j + 1 := by omega
      split
      · by_cases hk : k = a
        · subst hk
          simp [Memory.read, show ¬j = k by omega, Memory.read_eq_unlisted hm.2 hu, *]
        · simp [hk]
      · by_cases hk : k = a
        · simp [Memory.read, hk]
        · simp [Memory.read, hk, Ne.symm hk]
    · split
      · rename_i _ hj
        subst hj
        split
        · by_cases hk : k = a
          · subst hk; simp [Memory.read_eq_unlisted hm.2 (Nat.lt_succ_self k), *]
          · simp [Memory.read, hk, Ne.symm hk]
        · by_cases hk : k = a
          · simp [Memory.read, hk]
          · simp [Memory.read, hk, Ne.symm hk]
      · have ih := Memory.read_write_from a k b hm.2
        simp only [Memory.read, ih]
        split
        · rw [if_neg (by omega)]
        · rfl

theorem Memory.read_write {m : Memory} (a k : Nat) (b : Byte) (h : m.wf = true) :
    (m.write a b).read k = if k = a then b else m.read k :=
  Memory.read_write_from a k b h

/-- Every cell left by a write was there before, or is the one written. -/
theorem Memory.mem_write {c : Host.Cell} : ∀ {m : Memory} {a : Nat} {b : Byte}, c ∈ m.write a b → c ∈ m ∨ c = (a, b)
  | [], a, b, h => by
    simp only [Memory.write] at h; split at h <;> simp_all
  | (k, d) :: rest, a, b, h => by
    simp only [Memory.write] at h
    split at h
    · split at h
      · exact .inl h
      · rcases List.mem_cons.1 h with h | h
        · exact .inr h
        · exact .inl h
    · split at h
      · split at h
        · exact .inl (List.mem_cons_of_mem _ h)
        · rcases List.mem_cons.1 h with h | h
          · exact .inr h
          · exact .inl (List.mem_cons_of_mem _ h)
      · rcases List.mem_cons.1 h with h | h
        · exact .inl (h ▸ List.mem_cons_self)
        · rcases Memory.mem_write h with h | h
          · exact .inl (List.mem_cons_of_mem _ h)
          · exact .inr h

/-! ### Bytes at addresses (R46) -/

theorem byteWrite_wf {p : Config.Params} {m : Memory} (a : Word) (b : Byte) (h : m.wf = true) :
    (byteWrite p m a b).wf = true := by
  unfold byteWrite; split
  · exact h
  · exact Memory.write_wf _ _ h

theorem byteRead_byteWrite {p : Config.Params} {m : Memory} (a k : Word) (b : Byte) (h : m.wf = true) :
    byteRead p (byteWrite p m a b) k =
      if k = a ∧ (regionOf p k).isSome = true then b else byteRead p m k := by
  by_cases hk : k = a
  · subst hk
    cases hr : regionOf p k <;> simp [byteRead, byteWrite, hr, Memory.read_write, h]
  · cases hr : regionOf p k <;> cases ha : regionOf p a <;>
      simp [byteRead, byteWrite, hr, ha, Memory.read_write, h, hk, BitVec.toNat_inj]

/-! ### Accesses of several bytes (R43) -/

/-- What a write of `n` bytes keeps, if every byte write keeps it. -/
theorem memWrite_induct {p : Config.Params} (motive : Memory → Prop) (addr v : Word)
    (hstep : ∀ m a b, motive m → motive (byteWrite p m a b)) :
    ∀ (n : Nat) {m : Memory}, motive m → motive (memWrite p m addr n v) := by
  intro n m hm
  unfold memWrite
  generalize List.range n = l
  induction l generalizing m with
  | nil => exact hm
  | cons i l ih => exact ih (hstep _ _ _ hm)

theorem memWrite_wf {p : Config.Params} {m : Memory} (addr v : Word) (n : Nat) (h : m.wf = true) :
    (memWrite p m addr n v).wf = true :=
  memWrite_induct (fun m => m.wf = true) addr v (fun _ a b => byteWrite_wf a b) n h

theorem memWrite_succ (p : Config.Params) (m : Memory) (addr v : Word) (n : Nat) :
    memWrite p m addr (n + 1) v =
      byteWrite p (memWrite p m addr n v) (addr + BitVec.ofNat 32 n) (byteOfWord v n) := by
  simp [memWrite, List.range_succ]

/-! ### The regions (R41) and the invariant `memoryOk` -/

theorem byteWrite_memoryOk {p : Config.Params} {m : Memory} (a : Word) (b : Byte) (h : memoryOk p m = true) :
    memoryOk p (byteWrite p m a b) = true := by
  simp only [memoryOk, Bool.and_eq_true, List.all_eq_true, decide_eq_true_eq] at h ⊢
  refine ⟨byteWrite_wf a b h.1, fun c hc => ?_⟩
  unfold byteWrite at hc
  split at hc
  · exact h.2 c hc
  · rename_i r hr
    rcases Memory.mem_write hc with hc | hc
    · exact h.2 c hc
    · subst hc
      exact ⟨a.isLt, by simp [hr]⟩

theorem memWrite_memoryOk {p : Config.Params} {m : Memory} (addr v : Word) (n : Nat) (h : memoryOk p m = true) :
    memoryOk p (memWrite p m addr n v) = true :=
  memWrite_induct (fun m => memoryOk p m = true) addr v (fun _ a b => byteWrite_memoryOk a b) n h

/-- The loader keeps the canonical form and the regions (R240). -/
theorem loadImage_memoryOk (p : Config.Params) : memoryOk p (loadImage p) = true := by
  unfold loadImage
  suffices h : ∀ (l : List (Nat × Byte)) (m : Memory), memoryOk p m = true →
      memoryOk p (l.foldl (fun m cell => byteWrite p m (BitVec.ofNat 32 cell.1) cell.2) m) = true from
    h _ _ rfl
  intro l
  induction l with
  | nil => exact fun _ h => h
  | cons c l ih => exact fun m h => ih _ (byteWrite_memoryOk _ _ h)

/-- State.reset's memory has the canonical form. -/
theorem reset_mem_wf : State.reset.mem.wf = true := rfl

end Sys2Proof.Machine
end

