-- ==== Sys2Proof/Laws/Registers.lean ====
section
/-! SUPPORT. The register file: a read after a write, and two writes (R11; register 0 is no exception, R12). -/

namespace Sys2Proof.Machine

theorem readReg_writeReg (x : Vector Word 32) (r q : Reg) (v : Word) :
    readReg (writeReg x r v) q = if q = r then v else readReg x q := by
  simp only [readReg, writeReg, Vector.getElem_set, ← BitVec.toNat_inj, eq_comm]

@[simp] theorem readReg_writeReg_same (x : Vector Word 32) (r : Reg) (v : Word) : readReg (writeReg x r v) r = v := by
  simp [readReg_writeReg]

theorem readReg_writeReg_other (x : Vector Word 32) {r q : Reg} (v : Word) (h : q ≠ r) :
    readReg (writeReg x r v) q = readReg x q := by
  simp [readReg_writeReg, h]

/-- A register file is what its 32 registers read as. -/
theorem registers_ext {x y : Vector Word 32} (h : ∀ r, readReg x r = readReg y r) : x = y := by
  refine Vector.ext fun k hk => ?_
  have := h (BitVec.ofNat 5 k)
  simpa only [readReg, BitVec.toNat_ofNat, Nat.mod_eq_of_lt (show k < 2 ^ 5 from hk)] using this

@[simp] theorem writeReg_readReg (x : Vector Word 32) (r : Reg) : writeReg x r (readReg x r) = x :=
  registers_ext fun q => by simp only [readReg_writeReg]; split <;> simp_all

theorem writeReg_writeReg (x : Vector Word 32) (r : Reg) (v w : Word) :
    writeReg (writeReg x r v) r w = writeReg x r w :=
  registers_ext fun q => by simp only [readReg_writeReg]; split <;> rfl

/-- Every register of the cleared register file is 0 (R28). -/
@[simp] theorem readReg_replicate (v : Word) (r : Reg) : readReg (Vector.replicate 32 v) r = v := by
  simp [readReg]

end Sys2Proof.Machine
end

