-- ==== Sys2Proof/Laws/State.lean ====
section
/-! SUPPORT. What each update of the state leaves in each field: one lemma per field per update, true by unfolding, so that no
proof unfolds a record update. -/

namespace Sys2Proof.Machine

/-! ### `State.at` -/

@[simp] theorem State.at_cur (s : State) (g : Stage) : (s.at g).cur = s.cur := rfl
@[simp] theorem State.at_nxt (s : State) (g : Stage) : (s.at g).nxt = s.nxt := rfl
@[simp] theorem State.at_ifId (s : State) (g : Stage) : (s.at g).ifId = s.ifId := rfl
@[simp] theorem State.at_idEx (s : State) (g : Stage) : (s.at g).idEx = s.idEx := rfl
@[simp] theorem State.at_exMem (s : State) (g : Stage) : (s.at g).exMem = s.exMem := rfl
@[simp] theorem State.at_memWb (s : State) (g : Stage) : (s.at g).memWb = s.memWb := rfl
@[simp] theorem State.at_halted (s : State) (g : Stage) : (s.at g).halted = s.halted := rfl
@[simp] theorem State.at_branchPending (s : State) (g : Stage) : (s.at g).branchPending = s.branchPending := rfl
@[simp] theorem State.at_branchTarget (s : State) (g : Stage) : (s.at g).branchTarget = s.branchTarget := rfl
@[simp] theorem State.at_stall (s : State) (g : Stage) : (s.at g).stall = s.stall := rfl
@[simp] theorem State.at_forwarding (s : State) (g : Stage) : (s.at g).forwarding = s.forwarding := rfl
@[simp] theorem State.at_cycleCount (s : State) (g : Stage) : (s.at g).cycleCount = s.cycleCount := rfl
@[simp] theorem State.at_unimplementedSeen (s : State) (g : Stage) : (s.at g).unimplementedSeen = s.unimplementedSeen := rfl
@[simp] theorem State.at_mem (s : State) (g : Stage) : (s.at g).mem = s.mem := rfl
@[simp] theorem State.at_params (s : State) (g : Stage) : (s.at g).params = s.params := rfl
@[simp] theorem State.at_stage (s : State) (g : Stage) : (s.at g).stage = g := rfl

/-! ### `State.setIfId` -/

@[simp] theorem State.setIfId_cur (s : State) (l : Latch) : (s.setIfId l).cur = s.cur := rfl
@[simp] theorem State.setIfId_nxt (s : State) (l : Latch) : (s.setIfId l).nxt = s.nxt := rfl
@[simp] theorem State.setIfId_ifId (s : State) (l : Latch) : (s.setIfId l).ifId = l := rfl
@[simp] theorem State.setIfId_idEx (s : State) (l : Latch) : (s.setIfId l).idEx = s.idEx := rfl
@[simp] theorem State.setIfId_exMem (s : State) (l : Latch) : (s.setIfId l).exMem = s.exMem := rfl
@[simp] theorem State.setIfId_memWb (s : State) (l : Latch) : (s.setIfId l).memWb = s.memWb := rfl
@[simp] theorem State.setIfId_halted (s : State) (l : Latch) : (s.setIfId l).halted = s.halted := rfl
@[simp] theorem State.setIfId_branchPending (s : State) (l : Latch) : (s.setIfId l).branchPending = s.branchPending := rfl
@[simp] theorem State.setIfId_branchTarget (s : State) (l : Latch) : (s.setIfId l).branchTarget = s.branchTarget := rfl
@[simp] theorem State.setIfId_stall (s : State) (l : Latch) : (s.setIfId l).stall = s.stall := rfl
@[simp] theorem State.setIfId_forwarding (s : State) (l : Latch) : (s.setIfId l).forwarding = s.forwarding := rfl
@[simp] theorem State.setIfId_cycleCount (s : State) (l : Latch) : (s.setIfId l).cycleCount = s.cycleCount := rfl
@[simp] theorem State.setIfId_unimplementedSeen (s : State) (l : Latch) : (s.setIfId l).unimplementedSeen = s.unimplementedSeen := rfl
@[simp] theorem State.setIfId_mem (s : State) (l : Latch) : (s.setIfId l).mem = s.mem := rfl
@[simp] theorem State.setIfId_params (s : State) (l : Latch) : (s.setIfId l).params = s.params := rfl
@[simp] theorem State.setIfId_stage (s : State) (l : Latch) : (s.setIfId l).stage = s.stage := rfl

/-! ### `State.setIdEx` -/

@[simp] theorem State.setIdEx_cur (s : State) (l : Latch) : (s.setIdEx l).cur = s.cur := rfl
@[simp] theorem State.setIdEx_nxt (s : State) (l : Latch) : (s.setIdEx l).nxt = s.nxt := rfl
@[simp] theorem State.setIdEx_ifId (s : State) (l : Latch) : (s.setIdEx l).ifId = s.ifId := rfl
@[simp] theorem State.setIdEx_idEx (s : State) (l : Latch) : (s.setIdEx l).idEx = l := rfl
@[simp] theorem State.setIdEx_exMem (s : State) (l : Latch) : (s.setIdEx l).exMem = s.exMem := rfl
@[simp] theorem State.setIdEx_memWb (s : State) (l : Latch) : (s.setIdEx l).memWb = s.memWb := rfl
@[simp] theorem State.setIdEx_halted (s : State) (l : Latch) : (s.setIdEx l).halted = s.halted := rfl
@[simp] theorem State.setIdEx_branchPending (s : State) (l : Latch) : (s.setIdEx l).branchPending = s.branchPending := rfl
@[simp] theorem State.setIdEx_branchTarget (s : State) (l : Latch) : (s.setIdEx l).branchTarget = s.branchTarget := rfl
@[simp] theorem State.setIdEx_stall (s : State) (l : Latch) : (s.setIdEx l).stall = s.stall := rfl
@[simp] theorem State.setIdEx_forwarding (s : State) (l : Latch) : (s.setIdEx l).forwarding = s.forwarding := rfl
@[simp] theorem State.setIdEx_cycleCount (s : State) (l : Latch) : (s.setIdEx l).cycleCount = s.cycleCount := rfl
@[simp] theorem State.setIdEx_unimplementedSeen (s : State) (l : Latch) : (s.setIdEx l).unimplementedSeen = s.unimplementedSeen := rfl
@[simp] theorem State.setIdEx_mem (s : State) (l : Latch) : (s.setIdEx l).mem = s.mem := rfl
@[simp] theorem State.setIdEx_params (s : State) (l : Latch) : (s.setIdEx l).params = s.params := rfl
@[simp] theorem State.setIdEx_stage (s : State) (l : Latch) : (s.setIdEx l).stage = s.stage := rfl

/-! ### `State.setExMem` -/

@[simp] theorem State.setExMem_cur (s : State) (l : Latch) : (s.setExMem l).cur = s.cur := rfl
@[simp] theorem State.setExMem_nxt (s : State) (l : Latch) : (s.setExMem l).nxt = s.nxt := rfl
@[simp] theorem State.setExMem_ifId (s : State) (l : Latch) : (s.setExMem l).ifId = s.ifId := rfl
@[simp] theorem State.setExMem_idEx (s : State) (l : Latch) : (s.setExMem l).idEx = s.idEx := rfl
@[simp] theorem State.setExMem_exMem (s : State) (l : Latch) : (s.setExMem l).exMem = l := rfl
@[simp] theorem State.setExMem_memWb (s : State) (l : Latch) : (s.setExMem l).memWb = s.memWb := rfl
@[simp] theorem State.setExMem_halted (s : State) (l : Latch) : (s.setExMem l).halted = s.halted := rfl
@[simp] theorem State.setExMem_branchPending (s : State) (l : Latch) : (s.setExMem l).branchPending = s.branchPending := rfl
@[simp] theorem State.setExMem_branchTarget (s : State) (l : Latch) : (s.setExMem l).branchTarget = s.branchTarget := rfl
@[simp] theorem State.setExMem_stall (s : State) (l : Latch) : (s.setExMem l).stall = s.stall := rfl
@[simp] theorem State.setExMem_forwarding (s : State) (l : Latch) : (s.setExMem l).forwarding = s.forwarding := rfl
@[simp] theorem State.setExMem_cycleCount (s : State) (l : Latch) : (s.setExMem l).cycleCount = s.cycleCount := rfl
@[simp] theorem State.setExMem_unimplementedSeen (s : State) (l : Latch) : (s.setExMem l).unimplementedSeen = s.unimplementedSeen := rfl
@[simp] theorem State.setExMem_mem (s : State) (l : Latch) : (s.setExMem l).mem = s.mem := rfl
@[simp] theorem State.setExMem_params (s : State) (l : Latch) : (s.setExMem l).params = s.params := rfl
@[simp] theorem State.setExMem_stage (s : State) (l : Latch) : (s.setExMem l).stage = s.stage := rfl

/-! ### `State.setMemWb` -/

@[simp] theorem State.setMemWb_cur (s : State) (l : Latch) : (s.setMemWb l).cur = s.cur := rfl
@[simp] theorem State.setMemWb_nxt (s : State) (l : Latch) : (s.setMemWb l).nxt = s.nxt := rfl
@[simp] theorem State.setMemWb_ifId (s : State) (l : Latch) : (s.setMemWb l).ifId = s.ifId := rfl
@[simp] theorem State.setMemWb_idEx (s : State) (l : Latch) : (s.setMemWb l).idEx = s.idEx := rfl
@[simp] theorem State.setMemWb_exMem (s : State) (l : Latch) : (s.setMemWb l).exMem = s.exMem := rfl
@[simp] theorem State.setMemWb_memWb (s : State) (l : Latch) : (s.setMemWb l).memWb = l := rfl
@[simp] theorem State.setMemWb_halted (s : State) (l : Latch) : (s.setMemWb l).halted = s.halted := rfl
@[simp] theorem State.setMemWb_branchPending (s : State) (l : Latch) : (s.setMemWb l).branchPending = s.branchPending := rfl
@[simp] theorem State.setMemWb_branchTarget (s : State) (l : Latch) : (s.setMemWb l).branchTarget = s.branchTarget := rfl
@[simp] theorem State.setMemWb_stall (s : State) (l : Latch) : (s.setMemWb l).stall = s.stall := rfl
@[simp] theorem State.setMemWb_forwarding (s : State) (l : Latch) : (s.setMemWb l).forwarding = s.forwarding := rfl
@[simp] theorem State.setMemWb_cycleCount (s : State) (l : Latch) : (s.setMemWb l).cycleCount = s.cycleCount := rfl
@[simp] theorem State.setMemWb_unimplementedSeen (s : State) (l : Latch) : (s.setMemWb l).unimplementedSeen = s.unimplementedSeen := rfl
@[simp] theorem State.setMemWb_mem (s : State) (l : Latch) : (s.setMemWb l).mem = s.mem := rfl
@[simp] theorem State.setMemWb_params (s : State) (l : Latch) : (s.setMemWb l).params = s.params := rfl
@[simp] theorem State.setMemWb_stage (s : State) (l : Latch) : (s.setMemWb l).stage = s.stage := rfl

/-! ### `State.setNxtReg` -/

@[simp] theorem State.setNxtReg_cur (s : State) (r : Reg) (v : Word) : (s.setNxtReg r v).cur = s.cur := rfl
@[simp] theorem State.setNxtReg_nxt (s : State) (r : Reg) (v : Word) : (s.setNxtReg r v).nxt = { s.nxt with x := writeReg s.nxt.x r v } := rfl
@[simp] theorem State.setNxtReg_ifId (s : State) (r : Reg) (v : Word) : (s.setNxtReg r v).ifId = s.ifId := rfl
@[simp] theorem State.setNxtReg_idEx (s : State) (r : Reg) (v : Word) : (s.setNxtReg r v).idEx = s.idEx := rfl
@[simp] theorem State.setNxtReg_exMem (s : State) (r : Reg) (v : Word) : (s.setNxtReg r v).exMem = s.exMem := rfl
@[simp] theorem State.setNxtReg_memWb (s : State) (r : Reg) (v : Word) : (s.setNxtReg r v).memWb = s.memWb := rfl
@[simp] theorem State.setNxtReg_halted (s : State) (r : Reg) (v : Word) : (s.setNxtReg r v).halted = s.halted := rfl
@[simp] theorem State.setNxtReg_branchPending (s : State) (r : Reg) (v : Word) : (s.setNxtReg r v).branchPending = s.branchPending := rfl
@[simp] theorem State.setNxtReg_branchTarget (s : State) (r : Reg) (v : Word) : (s.setNxtReg r v).branchTarget = s.branchTarget := rfl
@[simp] theorem State.setNxtReg_stall (s : State) (r : Reg) (v : Word) : (s.setNxtReg r v).stall = s.stall := rfl
@[simp] theorem State.setNxtReg_forwarding (s : State) (r : Reg) (v : Word) : (s.setNxtReg r v).forwarding = s.forwarding := rfl
@[simp] theorem State.setNxtReg_cycleCount (s : State) (r : Reg) (v : Word) : (s.setNxtReg r v).cycleCount = s.cycleCount := rfl
@[simp] theorem State.setNxtReg_unimplementedSeen (s : State) (r : Reg) (v : Word) : (s.setNxtReg r v).unimplementedSeen = s.unimplementedSeen := rfl
@[simp] theorem State.setNxtReg_mem (s : State) (r : Reg) (v : Word) : (s.setNxtReg r v).mem = s.mem := rfl
@[simp] theorem State.setNxtReg_params (s : State) (r : Reg) (v : Word) : (s.setNxtReg r v).params = s.params := rfl
@[simp] theorem State.setNxtReg_stage (s : State) (r : Reg) (v : Word) : (s.setNxtReg r v).stage = s.stage := rfl

/-! ### `State.setNxtHi` -/

@[simp] theorem State.setNxtHi_cur (s : State) (v : Word) : (s.setNxtHi v).cur = s.cur := rfl
@[simp] theorem State.setNxtHi_nxt (s : State) (v : Word) : (s.setNxtHi v).nxt = { s.nxt with hi := v } := rfl
@[simp] theorem State.setNxtHi_ifId (s : State) (v : Word) : (s.setNxtHi v).ifId = s.ifId := rfl
@[simp] theorem State.setNxtHi_idEx (s : State) (v : Word) : (s.setNxtHi v).idEx = s.idEx := rfl
@[simp] theorem State.setNxtHi_exMem (s : State) (v : Word) : (s.setNxtHi v).exMem = s.exMem := rfl
@[simp] theorem State.setNxtHi_memWb (s : State) (v : Word) : (s.setNxtHi v).memWb = s.memWb := rfl
@[simp] theorem State.setNxtHi_halted (s : State) (v : Word) : (s.setNxtHi v).halted = s.halted := rfl
@[simp] theorem State.setNxtHi_branchPending (s : State) (v : Word) : (s.setNxtHi v).branchPending = s.branchPending := rfl
@[simp] theorem State.setNxtHi_branchTarget (s : State) (v : Word) : (s.setNxtHi v).branchTarget = s.branchTarget := rfl
@[simp] theorem State.setNxtHi_stall (s : State) (v : Word) : (s.setNxtHi v).stall = s.stall := rfl
@[simp] theorem State.setNxtHi_forwarding (s : State) (v : Word) : (s.setNxtHi v).forwarding = s.forwarding := rfl
@[simp] theorem State.setNxtHi_cycleCount (s : State) (v : Word) : (s.setNxtHi v).cycleCount = s.cycleCount := rfl
@[simp] theorem State.setNxtHi_unimplementedSeen (s : State) (v : Word) : (s.setNxtHi v).unimplementedSeen = s.unimplementedSeen := rfl
@[simp] theorem State.setNxtHi_mem (s : State) (v : Word) : (s.setNxtHi v).mem = s.mem := rfl
@[simp] theorem State.setNxtHi_params (s : State) (v : Word) : (s.setNxtHi v).params = s.params := rfl
@[simp] theorem State.setNxtHi_stage (s : State) (v : Word) : (s.setNxtHi v).stage = s.stage := rfl

/-! ### `State.setNxtLo` -/

@[simp] theorem State.setNxtLo_cur (s : State) (v : Word) : (s.setNxtLo v).cur = s.cur := rfl
@[simp] theorem State.setNxtLo_nxt (s : State) (v : Word) : (s.setNxtLo v).nxt = { s.nxt with lo := v } := rfl
@[simp] theorem State.setNxtLo_ifId (s : State) (v : Word) : (s.setNxtLo v).ifId = s.ifId := rfl
@[simp] theorem State.setNxtLo_idEx (s : State) (v : Word) : (s.setNxtLo v).idEx = s.idEx := rfl
@[simp] theorem State.setNxtLo_exMem (s : State) (v : Word) : (s.setNxtLo v).exMem = s.exMem := rfl
@[simp] theorem State.setNxtLo_memWb (s : State) (v : Word) : (s.setNxtLo v).memWb = s.memWb := rfl
@[simp] theorem State.setNxtLo_halted (s : State) (v : Word) : (s.setNxtLo v).halted = s.halted := rfl
@[simp] theorem State.setNxtLo_branchPending (s : State) (v : Word) : (s.setNxtLo v).branchPending = s.branchPending := rfl
@[simp] theorem State.setNxtLo_branchTarget (s : State) (v : Word) : (s.setNxtLo v).branchTarget = s.branchTarget := rfl
@[simp] theorem State.setNxtLo_stall (s : State) (v : Word) : (s.setNxtLo v).stall = s.stall := rfl
@[simp] theorem State.setNxtLo_forwarding (s : State) (v : Word) : (s.setNxtLo v).forwarding = s.forwarding := rfl
@[simp] theorem State.setNxtLo_cycleCount (s : State) (v : Word) : (s.setNxtLo v).cycleCount = s.cycleCount := rfl
@[simp] theorem State.setNxtLo_unimplementedSeen (s : State) (v : Word) : (s.setNxtLo v).unimplementedSeen = s.unimplementedSeen := rfl
@[simp] theorem State.setNxtLo_mem (s : State) (v : Word) : (s.setNxtLo v).mem = s.mem := rfl
@[simp] theorem State.setNxtLo_params (s : State) (v : Word) : (s.setNxtLo v).params = s.params := rfl
@[simp] theorem State.setNxtLo_stage (s : State) (v : Word) : (s.setNxtLo v).stage = s.stage := rfl

/-! ### `State.setNxtPc` -/

@[simp] theorem State.setNxtPc_cur (s : State) (v : Word) : (s.setNxtPc v).cur = s.cur := rfl
@[simp] theorem State.setNxtPc_nxt (s : State) (v : Word) : (s.setNxtPc v).nxt = { s.nxt with pc := v } := rfl
@[simp] theorem State.setNxtPc_ifId (s : State) (v : Word) : (s.setNxtPc v).ifId = s.ifId := rfl
@[simp] theorem State.setNxtPc_idEx (s : State) (v : Word) : (s.setNxtPc v).idEx = s.idEx := rfl
@[simp] theorem State.setNxtPc_exMem (s : State) (v : Word) : (s.setNxtPc v).exMem = s.exMem := rfl
@[simp] theorem State.setNxtPc_memWb (s : State) (v : Word) : (s.setNxtPc v).memWb = s.memWb := rfl
@[simp] theorem State.setNxtPc_halted (s : State) (v : Word) : (s.setNxtPc v).halted = s.halted := rfl
@[simp] theorem State.setNxtPc_branchPending (s : State) (v : Word) : (s.setNxtPc v).branchPending = s.branchPending := rfl
@[simp] theorem State.setNxtPc_branchTarget (s : State) (v : Word) : (s.setNxtPc v).branchTarget = s.branchTarget := rfl
@[simp] theorem State.setNxtPc_stall (s : State) (v : Word) : (s.setNxtPc v).stall = s.stall := rfl
@[simp] theorem State.setNxtPc_forwarding (s : State) (v : Word) : (s.setNxtPc v).forwarding = s.forwarding := rfl
@[simp] theorem State.setNxtPc_cycleCount (s : State) (v : Word) : (s.setNxtPc v).cycleCount = s.cycleCount := rfl
@[simp] theorem State.setNxtPc_unimplementedSeen (s : State) (v : Word) : (s.setNxtPc v).unimplementedSeen = s.unimplementedSeen := rfl
@[simp] theorem State.setNxtPc_mem (s : State) (v : Word) : (s.setNxtPc v).mem = s.mem := rfl
@[simp] theorem State.setNxtPc_params (s : State) (v : Word) : (s.setNxtPc v).params = s.params := rfl
@[simp] theorem State.setNxtPc_stage (s : State) (v : Word) : (s.setNxtPc v).stage = s.stage := rfl

/-! ### `State.halt` -/

@[simp] theorem State.halt_cur (s : State) : (s.halt).cur = s.cur := rfl
@[simp] theorem State.halt_nxt (s : State) : (s.halt).nxt = s.nxt := rfl
@[simp] theorem State.halt_ifId (s : State) : (s.halt).ifId = s.ifId := rfl
@[simp] theorem State.halt_idEx (s : State) : (s.halt).idEx = s.idEx := rfl
@[simp] theorem State.halt_exMem (s : State) : (s.halt).exMem = s.exMem := rfl
@[simp] theorem State.halt_memWb (s : State) : (s.halt).memWb = s.memWb := rfl
@[simp] theorem State.halt_halted (s : State) : (s.halt).halted = true := rfl
@[simp] theorem State.halt_branchPending (s : State) : (s.halt).branchPending = s.branchPending := rfl
@[simp] theorem State.halt_branchTarget (s : State) : (s.halt).branchTarget = s.branchTarget := rfl
@[simp] theorem State.halt_stall (s : State) : (s.halt).stall = s.stall := rfl
@[simp] theorem State.halt_forwarding (s : State) : (s.halt).forwarding = s.forwarding := rfl
@[simp] theorem State.halt_cycleCount (s : State) : (s.halt).cycleCount = s.cycleCount := rfl
@[simp] theorem State.halt_unimplementedSeen (s : State) : (s.halt).unimplementedSeen = s.unimplementedSeen := rfl
@[simp] theorem State.halt_mem (s : State) : (s.halt).mem = s.mem := rfl
@[simp] theorem State.halt_params (s : State) : (s.halt).params = s.params := rfl
@[simp] theorem State.halt_stage (s : State) : (s.halt).stage = s.stage := rfl

/-! ### `State.raiseBranch` -/

@[simp] theorem State.raiseBranch_cur (s : State) (t : Word) : (s.raiseBranch t).cur = s.cur := rfl
@[simp] theorem State.raiseBranch_nxt (s : State) (t : Word) : (s.raiseBranch t).nxt = s.nxt := rfl
@[simp] theorem State.raiseBranch_ifId (s : State) (t : Word) : (s.raiseBranch t).ifId = s.ifId := rfl
@[simp] theorem State.raiseBranch_idEx (s : State) (t : Word) : (s.raiseBranch t).idEx = s.idEx := rfl
@[simp] theorem State.raiseBranch_exMem (s : State) (t : Word) : (s.raiseBranch t).exMem = s.exMem := rfl
@[simp] theorem State.raiseBranch_memWb (s : State) (t : Word) : (s.raiseBranch t).memWb = s.memWb := rfl
@[simp] theorem State.raiseBranch_halted (s : State) (t : Word) : (s.raiseBranch t).halted = s.halted := rfl
@[simp] theorem State.raiseBranch_branchPending (s : State) (t : Word) : (s.raiseBranch t).branchPending = true := rfl
@[simp] theorem State.raiseBranch_branchTarget (s : State) (t : Word) : (s.raiseBranch t).branchTarget = t := rfl
@[simp] theorem State.raiseBranch_stall (s : State) (t : Word) : (s.raiseBranch t).stall = s.stall := rfl
@[simp] theorem State.raiseBranch_forwarding (s : State) (t : Word) : (s.raiseBranch t).forwarding = s.forwarding := rfl
@[simp] theorem State.raiseBranch_cycleCount (s : State) (t : Word) : (s.raiseBranch t).cycleCount = s.cycleCount := rfl
@[simp] theorem State.raiseBranch_unimplementedSeen (s : State) (t : Word) : (s.raiseBranch t).unimplementedSeen = s.unimplementedSeen := rfl
@[simp] theorem State.raiseBranch_mem (s : State) (t : Word) : (s.raiseBranch t).mem = s.mem := rfl
@[simp] theorem State.raiseBranch_params (s : State) (t : Word) : (s.raiseBranch t).params = s.params := rfl
@[simp] theorem State.raiseBranch_stage (s : State) (t : Word) : (s.raiseBranch t).stage = s.stage := rfl

/-! ### `State.clearBranch` -/

@[simp] theorem State.clearBranch_cur (s : State) : (s.clearBranch).cur = s.cur := rfl
@[simp] theorem State.clearBranch_nxt (s : State) : (s.clearBranch).nxt = s.nxt := rfl
@[simp] theorem State.clearBranch_ifId (s : State) : (s.clearBranch).ifId = s.ifId := rfl
@[simp] theorem State.clearBranch_idEx (s : State) : (s.clearBranch).idEx = s.idEx := rfl
@[simp] theorem State.clearBranch_exMem (s : State) : (s.clearBranch).exMem = s.exMem := rfl
@[simp] theorem State.clearBranch_memWb (s : State) : (s.clearBranch).memWb = s.memWb := rfl
@[simp] theorem State.clearBranch_halted (s : State) : (s.clearBranch).halted = s.halted := rfl
@[simp] theorem State.clearBranch_branchPending (s : State) : (s.clearBranch).branchPending = false := rfl
@[simp] theorem State.clearBranch_branchTarget (s : State) : (s.clearBranch).branchTarget = s.branchTarget := rfl
@[simp] theorem State.clearBranch_stall (s : State) : (s.clearBranch).stall = s.stall := rfl
@[simp] theorem State.clearBranch_forwarding (s : State) : (s.clearBranch).forwarding = s.forwarding := rfl
@[simp] theorem State.clearBranch_cycleCount (s : State) : (s.clearBranch).cycleCount = s.cycleCount := rfl
@[simp] theorem State.clearBranch_unimplementedSeen (s : State) : (s.clearBranch).unimplementedSeen = s.unimplementedSeen := rfl
@[simp] theorem State.clearBranch_mem (s : State) : (s.clearBranch).mem = s.mem := rfl
@[simp] theorem State.clearBranch_params (s : State) : (s.clearBranch).params = s.params := rfl
@[simp] theorem State.clearBranch_stage (s : State) : (s.clearBranch).stage = s.stage := rfl

/-! ### `State.setStall` -/

@[simp] theorem State.setStall_cur (s : State) (n : Nat) : (s.setStall n).cur = s.cur := rfl
@[simp] theorem State.setStall_nxt (s : State) (n : Nat) : (s.setStall n).nxt = s.nxt := rfl
@[simp] theorem State.setStall_ifId (s : State) (n : Nat) : (s.setStall n).ifId = s.ifId := rfl
@[simp] theorem State.setStall_idEx (s : State) (n : Nat) : (s.setStall n).idEx = s.idEx := rfl
@[simp] theorem State.setStall_exMem (s : State) (n : Nat) : (s.setStall n).exMem = s.exMem := rfl
@[simp] theorem State.setStall_memWb (s : State) (n : Nat) : (s.setStall n).memWb = s.memWb := rfl
@[simp] theorem State.setStall_halted (s : State) (n : Nat) : (s.setStall n).halted = s.halted := rfl
@[simp] theorem State.setStall_branchPending (s : State) (n : Nat) : (s.setStall n).branchPending = s.branchPending := rfl
@[simp] theorem State.setStall_branchTarget (s : State) (n : Nat) : (s.setStall n).branchTarget = s.branchTarget := rfl
@[simp] theorem State.setStall_stall (s : State) (n : Nat) : (s.setStall n).stall = n := rfl
@[simp] theorem State.setStall_forwarding (s : State) (n : Nat) : (s.setStall n).forwarding = s.forwarding := rfl
@[simp] theorem State.setStall_cycleCount (s : State) (n : Nat) : (s.setStall n).cycleCount = s.cycleCount := rfl
@[simp] theorem State.setStall_unimplementedSeen (s : State) (n : Nat) : (s.setStall n).unimplementedSeen = s.unimplementedSeen := rfl
@[simp] theorem State.setStall_mem (s : State) (n : Nat) : (s.setStall n).mem = s.mem := rfl
@[simp] theorem State.setStall_params (s : State) (n : Nat) : (s.setStall n).params = s.params := rfl
@[simp] theorem State.setStall_stage (s : State) (n : Nat) : (s.setStall n).stage = s.stage := rfl

/-! ### `State.noteUnimplemented` -/

@[simp] theorem State.noteUnimplemented_cur (s : State) : (s.noteUnimplemented).cur = s.cur := rfl
@[simp] theorem State.noteUnimplemented_nxt (s : State) : (s.noteUnimplemented).nxt = s.nxt := rfl
@[simp] theorem State.noteUnimplemented_ifId (s : State) : (s.noteUnimplemented).ifId = s.ifId := rfl
@[simp] theorem State.noteUnimplemented_idEx (s : State) : (s.noteUnimplemented).idEx = s.idEx := rfl
@[simp] theorem State.noteUnimplemented_exMem (s : State) : (s.noteUnimplemented).exMem = s.exMem := rfl
@[simp] theorem State.noteUnimplemented_memWb (s : State) : (s.noteUnimplemented).memWb = s.memWb := rfl
@[simp] theorem State.noteUnimplemented_halted (s : State) : (s.noteUnimplemented).halted = s.halted := rfl
@[simp] theorem State.noteUnimplemented_branchPending (s : State) : (s.noteUnimplemented).branchPending = s.branchPending := rfl
@[simp] theorem State.noteUnimplemented_branchTarget (s : State) : (s.noteUnimplemented).branchTarget = s.branchTarget := rfl
@[simp] theorem State.noteUnimplemented_stall (s : State) : (s.noteUnimplemented).stall = s.stall := rfl
@[simp] theorem State.noteUnimplemented_forwarding (s : State) : (s.noteUnimplemented).forwarding = s.forwarding := rfl
@[simp] theorem State.noteUnimplemented_cycleCount (s : State) : (s.noteUnimplemented).cycleCount = s.cycleCount := rfl
@[simp] theorem State.noteUnimplemented_unimplementedSeen (s : State) : (s.noteUnimplemented).unimplementedSeen = true := rfl
@[simp] theorem State.noteUnimplemented_mem (s : State) : (s.noteUnimplemented).mem = s.mem := rfl
@[simp] theorem State.noteUnimplemented_params (s : State) : (s.noteUnimplemented).params = s.params := rfl
@[simp] theorem State.noteUnimplemented_stage (s : State) : (s.noteUnimplemented).stage = s.stage := rfl

/-! ### `State.setMem` -/

@[simp] theorem State.setMem_cur (s : State) (m : Memory) : (s.setMem m).cur = s.cur := rfl
@[simp] theorem State.setMem_nxt (s : State) (m : Memory) : (s.setMem m).nxt = s.nxt := rfl
@[simp] theorem State.setMem_ifId (s : State) (m : Memory) : (s.setMem m).ifId = s.ifId := rfl
@[simp] theorem State.setMem_idEx (s : State) (m : Memory) : (s.setMem m).idEx = s.idEx := rfl
@[simp] theorem State.setMem_exMem (s : State) (m : Memory) : (s.setMem m).exMem = s.exMem := rfl
@[simp] theorem State.setMem_memWb (s : State) (m : Memory) : (s.setMem m).memWb = s.memWb := rfl
@[simp] theorem State.setMem_halted (s : State) (m : Memory) : (s.setMem m).halted = s.halted := rfl
@[simp] theorem State.setMem_branchPending (s : State) (m : Memory) : (s.setMem m).branchPending = s.branchPending := rfl
@[simp] theorem State.setMem_branchTarget (s : State) (m : Memory) : (s.setMem m).branchTarget = s.branchTarget := rfl
@[simp] theorem State.setMem_stall (s : State) (m : Memory) : (s.setMem m).stall = s.stall := rfl
@[simp] theorem State.setMem_forwarding (s : State) (m : Memory) : (s.setMem m).forwarding = s.forwarding := rfl
@[simp] theorem State.setMem_cycleCount (s : State) (m : Memory) : (s.setMem m).cycleCount = s.cycleCount := rfl
@[simp] theorem State.setMem_unimplementedSeen (s : State) (m : Memory) : (s.setMem m).unimplementedSeen = s.unimplementedSeen := rfl
@[simp] theorem State.setMem_mem (s : State) (m : Memory) : (s.setMem m).mem = m := rfl
@[simp] theorem State.setMem_params (s : State) (m : Memory) : (s.setMem m).params = s.params := rfl
@[simp] theorem State.setMem_stage (s : State) (m : Memory) : (s.setMem m).stage = s.stage := rfl

/-! ### `State.commit` -/

@[simp] theorem State.commit_cur (s : State) : (s.commit).cur = s.nxt := rfl
@[simp] theorem State.commit_nxt (s : State) : (s.commit).nxt = s.nxt := rfl
@[simp] theorem State.commit_ifId (s : State) : (s.commit).ifId = s.ifId := rfl
@[simp] theorem State.commit_idEx (s : State) : (s.commit).idEx = s.idEx := rfl
@[simp] theorem State.commit_exMem (s : State) : (s.commit).exMem = s.exMem := rfl
@[simp] theorem State.commit_memWb (s : State) : (s.commit).memWb = s.memWb := rfl
@[simp] theorem State.commit_halted (s : State) : (s.commit).halted = s.halted := rfl
@[simp] theorem State.commit_branchPending (s : State) : (s.commit).branchPending = s.branchPending := rfl
@[simp] theorem State.commit_branchTarget (s : State) : (s.commit).branchTarget = s.branchTarget := rfl
@[simp] theorem State.commit_stall (s : State) : (s.commit).stall = s.stall := rfl
@[simp] theorem State.commit_forwarding (s : State) : (s.commit).forwarding = s.forwarding := rfl
@[simp] theorem State.commit_cycleCount (s : State) : (s.commit).cycleCount = s.cycleCount + 1 := rfl
@[simp] theorem State.commit_unimplementedSeen (s : State) : (s.commit).unimplementedSeen = s.unimplementedSeen := rfl
@[simp] theorem State.commit_mem (s : State) : (s.commit).mem = s.mem := rfl
@[simp] theorem State.commit_params (s : State) : (s.commit).params = s.params := rfl
@[simp] theorem State.commit_stage (s : State) : (s.commit).stage = Stage.writeback := rfl

end Sys2Proof.Machine
end

