-- ==== Sys2Proof/Laws/Ops.lean ====
section
/-! SUPPORT. One lemma per shared operation of the stage units: everything it can answer. -/

namespace Sys2Proof.Machine

/-! ### The four contributions of an instruction -/

variable (d e m w : State → State) (s : State)

@[simp] theorem byStage_decode : byStage d e m w (s.at .decode) = .next (d (s.at .decode)) := rfl
@[simp] theorem byStage_execute : byStage d e m w (s.at .execute) = .next (e (s.at .execute)) := rfl
@[simp] theorem byStage_memory : byStage d e m w (s.at .memory) = .next (m (s.at .memory)) := rfl
@[simp] theorem byStage_writeback : byStage d e m w (s.at .writeback) = .next (w (s.at .writeback)) := rfl

/-- `byStage` answers a next state, that of the unit that is running. -/
theorem byStage_cases :
    (s.stage = .decode ∧ byStage d e m w s = .next (d s)) ∨ (s.stage = .execute ∧ byStage d e m w s = .next (e s)) ∨
    (s.stage = .memory ∧ byStage d e m w s = .next (m s)) ∨
    (s.stage = .writeback ∧ byStage d e m w s = .next (w s)) := by
  unfold byStage
  cases h : s.stage <;> simp

/-! ### Execute, Memory, Writeback -/

theorem executePass_eq : executePass s = { s with exMem := s.idEx } := rfl

theorem executeResult_eq (v : Word) : executeResult v s = { s with exMem := { s.idEx with aluOutput := v } } := rfl

theorem memoryPass_eq : memoryPass s = { s with memWb := s.exMem } := rfl

theorem memoryLoad_eq (v : Word) : memoryLoad v s = { s with memWb := { s.exMem with lmd := v } } := rfl

theorem memoryStore_eq (n : Nat) :
    memoryStore n s =
      { s with memWb := s.exMem, mem := memWrite s.params s.mem s.exMem.aluOutput n s.exMem.storeData } := rfl

/-- Writeback of a result: the destination register if `RegWrite`, else nothing. -/
theorem writebackResult_cases :
    (s.memWb.regWrite = true ∧ writebackResult s = s.setNxtReg s.memWb.registerRd s.memWb.aluOutput) ∨
    (s.memWb.regWrite = false ∧ writebackResult s = s) := by
  unfold writebackResult
  cases s.memWb.regWrite <;> simp

/-- Writeback of a load: the destination register if `RegWrite`, else nothing. -/
theorem writebackLoad_cases :
    (s.memWb.regWrite = true ∧ writebackLoad s = s.setNxtReg s.memWb.registerRd s.memWb.lmd) ∨
    (s.memWb.regWrite = false ∧ writebackLoad s = s) := by
  unfold writebackLoad
  cases s.memWb.regWrite <;> simp

/-- Writeback of a SYSCALL: the halt, or nothing (R210). -/
theorem writebackSyscall_cases :
    (readReg s.cur.x serviceRegister = haltCode ∧ writebackSyscall s = s.halt) ∨
    (readReg s.cur.x serviceRegister ≠ haltCode ∧ writebackSyscall s = s) := by
  unfold writebackSyscall
  by_cases h : readReg s.cur.x serviceRegister = haltCode <;> simp [h]

/-- Execute of a conditional branch: a pending transfer, or only the latch copied (R170). -/
theorem executeBranch_cases (taken : Bool) :
    (taken = true ∧ executeBranch taken s = (executePass s).raiseBranch (branchTargetOf s.idEx)) ∨
    (taken = false ∧ executeBranch taken s = executePass s) := by
  cases taken
  · exact .inr ⟨rfl, rfl⟩
  · exact .inl ⟨rfl, rfl⟩

theorem executeTransfer_eq (t : Word) :
    executeTransfer t s = { s with exMem := s.idEx, branchPending := true, branchTarget := t } := rfl

theorem executeLink_eq (t : Word) :
    executeLink t s =
      { s with exMem := { s.idEx with aluOutput := s.idEx.pc + 4 }, branchPending := true, branchTarget := t } := rfl

/-! ### Decode: hazards and issuing -/

/-- The hazard check of one operand, every outcome with its condition (R93). -/
theorem hazard_cases (r : Reg) :
    (s.exMem.regWrite = true ∧ s.exMem.registerRd = r ∧
      hazard s r = if s.forwarding = false then .stall 2 else if isLoadWord s.exMem.ir then .stall 1 else .fwdExMem) ∨
    (¬(s.exMem.regWrite = true ∧ s.exMem.registerRd = r) ∧ s.memWb.regWrite = true ∧ s.memWb.registerRd = r ∧
      hazard s r = if s.forwarding = false then .stall 1 else .fwdMemWb) ∨
    (¬(s.exMem.regWrite = true ∧ s.exMem.registerRd = r) ∧ ¬(s.memWb.regWrite = true ∧ s.memWb.registerRd = r) ∧
      hazard s r = .none) := by
  unfold hazard
  by_cases h1 : s.exMem.regWrite = true ∧ s.exMem.registerRd = r <;>
    by_cases h2 : s.memWb.regWrite = true ∧ s.memWb.registerRd = r <;>
      cases s.forwarding <;> simp [h1, h2]

/-- Where the value of a source comes from (R97). -/
theorem operandValue_cases (r : Reg) :
    (hazard s r = .fwdExMem ∧ operandValue s r = s.exMem.aluOutput) ∨
    (hazard s r = .fwdMemWb ∧ operandValue s r = if isLoadWord s.memWb.ir then s.memWb.lmd else s.memWb.aluOutput) ∨
    (hazard s r ≠ .fwdExMem ∧ hazard s r ≠ .fwdMemWb ∧ operandValue s r = readReg s.nxt.x r) := by
  unfold operandValue memWbValue
  cases hazard s r <;> simp

theorem stallOf_le (o : Option Reg) : stallOf s o ≤ 2 := by
  cases o with
  | none => simp [stallOf]
  | some r =>
    simp only [stallOf]
    rcases hazard_cases s r with ⟨-, -, h⟩ | ⟨-, -, -, h⟩ | ⟨-, -, h⟩ <;> rw [h] <;>
      cases s.forwarding <;> cases isLoadWord s.exMem.ir <;> simp

/-- A stall is at most 2 cycles (R27 item 3). -/
theorem stallNeeded_le (q : Issue) : stallNeeded q s ≤ 2 := by
  simp only [stallNeeded, Nat.max_le]
  exact ⟨stallOf_le s q.a, stallOf_le s q.b, stallOf_le s q.storeData⟩

/-- Decode issues, or stalls with a bubble (R96, R97). -/
theorem issue_cases (q : Issue) :
    (stallNeeded q s = 0 ∧ issue q s = s.setIdEx (issuedLatch q s)) ∨
    (0 < stallNeeded q s ∧ stallNeeded q s ≤ 2 ∧
      issue q s = (s.setStall (stallNeeded q s)).setIdEx Latch.clear) := by
  unfold issue
  rcases Nat.eq_zero_or_pos (stallNeeded q s) with h | h
  · exact .inl ⟨h, by simp [h]⟩
  · exact .inr ⟨h, stallNeeded_le s q, by simp [h]⟩

@[simp] theorem issuedLatch_ir (q : Issue) : (issuedLatch q s).ir = s.ifId.ir := rfl
@[simp] theorem issuedLatch_pc (q : Issue) : (issuedLatch q s).pc = s.ifId.pc := rfl
@[simp] theorem issuedLatch_registerRd (q : Issue) : (issuedLatch q s).registerRd = q.dest.getD 0 := rfl
@[simp] theorem issuedLatch_regWrite (q : Issue) : (issuedLatch q s).regWrite = q.dest.isSome := rfl
@[simp] theorem issuedLatch_aluOutput (q : Issue) : (issuedLatch q s).aluOutput = 0 := rfl
@[simp] theorem issuedLatch_lmd (q : Issue) : (issuedLatch q s).lmd = 0 := rfl

variable {s}

theorem hazard_of_noProducer (h : NoProducer s) (r : Reg) : hazard s r = .none := by
  simp [hazard, h.1, h.2]

theorem operandField_of_noProducer (h : NoProducer s) (o : Option Reg) :
    operandField s o = o.elim 0 (readReg s.nxt.x) := by
  cases o <;> simp [operandField, operandValue, hazard_of_noProducer h]

/-- Without a producer in Execute or Memory, Decode issues (R93, R97). -/
theorem issue_of_noProducer (h : NoProducer s) (q : Issue) : issue q s = s.setIdEx (issuedLatch q s) := by
  have hs : ∀ o, stallOf s o = 0 := fun o => by cases o <;> simp [stallOf, hazard_of_noProducer h]
  simp [issue, stallNeeded, hs]

variable (s)

/-! ### Fetch -/

/-- The three cases of Fetch (R98, R99, R100). -/
theorem fetchUnit_cases :
    (s.branchPending = true ∧ fetchUnit s =
      (((s.setNxtPc s.branchTarget).setIfId Latch.clear).clearBranch).setStall 0) ∨
    (s.branchPending = false ∧ 0 < s.stall ∧ fetchUnit s = s.setStall (s.stall - 1)) ∨
    (s.branchPending = false ∧ s.stall = 0 ∧ fetchUnit s =
      (s.setIfId { Latch.clear with ir := fetchWord s s.cur.pc, pc := s.cur.pc }).setNxtPc (s.cur.pc + 4)) := by
  unfold fetchUnit
  cases s.branchPending
  · rcases Nat.eq_zero_or_pos s.stall with h | h <;> simp [h]
  · simp

end Sys2Proof.Machine
end

