-- ==== Sys2Proof/Laws/PerInstr.lean ====
section
/-! SUPPORT. The statement made per instruction: its encoding matches its row of spec/opcode_table.json (R71). -/

namespace Sys2Proof.Laws

/-- `i` has a row in the opcode table, under its mnemonic, and its word has the row's match bits under the row's mask. -/
def MatchesTable.Statement (i : Instr) : Prop :=
  ∃ row ∈ opcodeTable, row.1 = mnemonic i ∧ encode i &&& row.2.2 = row.2.1

theorem MatchesTable.nop : MatchesTable.Statement .nop :=
  ⟨("NOP", 0x00000000, 0xFFFFFFFF), by decide, rfl, rfl⟩
theorem MatchesTable.add (rs rt rd shamt : Reg) : MatchesTable.Statement (.add rs rt rd shamt) :=
  ⟨("ADD", 0x00000020, 0xFC00003F), by decide, rfl, (encodeR_mask _ _ _ _ _).trans rfl⟩
theorem MatchesTable.addu (rs rt rd shamt : Reg) : MatchesTable.Statement (.addu rs rt rd shamt) :=
  ⟨("ADDU", 0x00000021, 0xFC00003F), by decide, rfl, (encodeR_mask _ _ _ _ _).trans rfl⟩
theorem MatchesTable.sub (rs rt rd shamt : Reg) : MatchesTable.Statement (.sub rs rt rd shamt) :=
  ⟨("SUB", 0x00000022, 0xFC00003F), by decide, rfl, (encodeR_mask _ _ _ _ _).trans rfl⟩
theorem MatchesTable.subu (rs rt rd shamt : Reg) : MatchesTable.Statement (.subu rs rt rd shamt) :=
  ⟨("SUBU", 0x00000023, 0xFC00003F), by decide, rfl, (encodeR_mask _ _ _ _ _).trans rfl⟩
theorem MatchesTable.and (rs rt rd shamt : Reg) : MatchesTable.Statement (.and rs rt rd shamt) :=
  ⟨("AND", 0x00000024, 0xFC00003F), by decide, rfl, (encodeR_mask _ _ _ _ _).trans rfl⟩
theorem MatchesTable.or (rs rt rd shamt : Reg) : MatchesTable.Statement (.or rs rt rd shamt) :=
  ⟨("OR", 0x00000025, 0xFC00003F), by decide, rfl, (encodeR_mask _ _ _ _ _).trans rfl⟩
theorem MatchesTable.xor (rs rt rd shamt : Reg) : MatchesTable.Statement (.xor rs rt rd shamt) :=
  ⟨("XOR", 0x00000026, 0xFC00003F), by decide, rfl, (encodeR_mask _ _ _ _ _).trans rfl⟩
theorem MatchesTable.nor (rs rt rd shamt : Reg) : MatchesTable.Statement (.nor rs rt rd shamt) :=
  ⟨("NOR", 0x00000027, 0xFC00003F), by decide, rfl, (encodeR_mask _ _ _ _ _).trans rfl⟩
theorem MatchesTable.slt (rs rt rd shamt : Reg) : MatchesTable.Statement (.slt rs rt rd shamt) :=
  ⟨("SLT", 0x0000002A, 0xFC00003F), by decide, rfl, (encodeR_mask _ _ _ _ _).trans rfl⟩
theorem MatchesTable.sll (rs rt rd shamt : Reg) : MatchesTable.Statement (.sll rs rt rd shamt) :=
  ⟨("SLL", 0x00000000, 0xFC00003F), by decide, rfl, (encodeR_mask _ _ _ _ _).trans rfl⟩
theorem MatchesTable.srl (rs rt rd shamt : Reg) : MatchesTable.Statement (.srl rs rt rd shamt) :=
  ⟨("SRL", 0x00000002, 0xFC00003F), by decide, rfl, (encodeR_mask _ _ _ _ _).trans rfl⟩
theorem MatchesTable.sra (rs rt rd shamt : Reg) : MatchesTable.Statement (.sra rs rt rd shamt) :=
  ⟨("SRA", 0x00000003, 0xFC00003F), by decide, rfl, (encodeR_mask _ _ _ _ _).trans rfl⟩
theorem MatchesTable.addi (rs rt : Reg) (imm : Half) : MatchesTable.Statement (.addi rs rt imm) :=
  ⟨("ADDI", 0x20000000, 0xFC000000), by decide, rfl, (encodeI_mask _ _ _ _).trans rfl⟩
theorem MatchesTable.addiu (rs rt : Reg) (imm : Half) : MatchesTable.Statement (.addiu rs rt imm) :=
  ⟨("ADDIU", 0x24000000, 0xFC000000), by decide, rfl, (encodeI_mask _ _ _ _).trans rfl⟩
theorem MatchesTable.slti (rs rt : Reg) (imm : Half) : MatchesTable.Statement (.slti rs rt imm) :=
  ⟨("SLTI", 0x28000000, 0xFC000000), by decide, rfl, (encodeI_mask _ _ _ _).trans rfl⟩
theorem MatchesTable.andi (rs rt : Reg) (imm : Half) : MatchesTable.Statement (.andi rs rt imm) :=
  ⟨("ANDI", 0x30000000, 0xFC000000), by decide, rfl, (encodeI_mask _ _ _ _).trans rfl⟩
theorem MatchesTable.ori (rs rt : Reg) (imm : Half) : MatchesTable.Statement (.ori rs rt imm) :=
  ⟨("ORI", 0x34000000, 0xFC000000), by decide, rfl, (encodeI_mask _ _ _ _).trans rfl⟩
theorem MatchesTable.xori (rs rt : Reg) (imm : Half) : MatchesTable.Statement (.xori rs rt imm) :=
  ⟨("XORI", 0x38000000, 0xFC000000), by decide, rfl, (encodeI_mask _ _ _ _).trans rfl⟩
theorem MatchesTable.lui (rs rt : Reg) (imm : Half) : MatchesTable.Statement (.lui rs rt imm) :=
  ⟨("LUI", 0x3C000000, 0xFC000000), by decide, rfl, (encodeI_mask _ _ _ _).trans rfl⟩
theorem MatchesTable.mult (rs rt rd shamt : Reg) : MatchesTable.Statement (.mult rs rt rd shamt) :=
  ⟨("MULT", 0x00000018, 0xFC00003F), by decide, rfl, (encodeR_mask _ _ _ _ _).trans rfl⟩
theorem MatchesTable.multu (rs rt rd shamt : Reg) : MatchesTable.Statement (.multu rs rt rd shamt) :=
  ⟨("MULTU", 0x00000019, 0xFC00003F), by decide, rfl, (encodeR_mask _ _ _ _ _).trans rfl⟩
theorem MatchesTable.div (rs rt rd shamt : Reg) : MatchesTable.Statement (.div rs rt rd shamt) :=
  ⟨("DIV", 0x0000001A, 0xFC00003F), by decide, rfl, (encodeR_mask _ _ _ _ _).trans rfl⟩
theorem MatchesTable.divu (rs rt rd shamt : Reg) : MatchesTable.Statement (.divu rs rt rd shamt) :=
  ⟨("DIVU", 0x0000001B, 0xFC00003F), by decide, rfl, (encodeR_mask _ _ _ _ _).trans rfl⟩
theorem MatchesTable.mfhi (rs rt rd shamt : Reg) : MatchesTable.Statement (.mfhi rs rt rd shamt) :=
  ⟨("MFHI", 0x00000010, 0xFC00003F), by decide, rfl, (encodeR_mask _ _ _ _ _).trans rfl⟩
theorem MatchesTable.mflo (rs rt rd shamt : Reg) : MatchesTable.Statement (.mflo rs rt rd shamt) :=
  ⟨("MFLO", 0x00000012, 0xFC00003F), by decide, rfl, (encodeR_mask _ _ _ _ _).trans rfl⟩
theorem MatchesTable.mthi (rs rt rd shamt : Reg) : MatchesTable.Statement (.mthi rs rt rd shamt) :=
  ⟨("MTHI", 0x00000011, 0xFC00003F), by decide, rfl, (encodeR_mask _ _ _ _ _).trans rfl⟩
theorem MatchesTable.mtlo (rs rt rd shamt : Reg) : MatchesTable.Statement (.mtlo rs rt rd shamt) :=
  ⟨("MTLO", 0x00000013, 0xFC00003F), by decide, rfl, (encodeR_mask _ _ _ _ _).trans rfl⟩
theorem MatchesTable.beq (rs rt : Reg) (offset : Half) : MatchesTable.Statement (.beq rs rt offset) :=
  ⟨("BEQ", 0x10000000, 0xFC000000), by decide, rfl, (encodeI_mask _ _ _ _).trans rfl⟩
theorem MatchesTable.bne (rs rt : Reg) (offset : Half) : MatchesTable.Statement (.bne rs rt offset) :=
  ⟨("BNE", 0x14000000, 0xFC000000), by decide, rfl, (encodeI_mask _ _ _ _).trans rfl⟩
theorem MatchesTable.blez (rs rt : Reg) (offset : Half) : MatchesTable.Statement (.blez rs rt offset) :=
  ⟨("BLEZ", 0x18000000, 0xFC000000), by decide, rfl, (encodeI_mask _ _ _ _).trans rfl⟩
theorem MatchesTable.bgtz (rs rt : Reg) (offset : Half) : MatchesTable.Statement (.bgtz rs rt offset) :=
  ⟨("BGTZ", 0x1C000000, 0xFC000000), by decide, rfl, (encodeI_mask _ _ _ _).trans rfl⟩
theorem MatchesTable.bltz (rs : Reg) (offset : Half) : MatchesTable.Statement (.bltz rs offset) :=
  ⟨("BLTZ", 0x04000000, 0xFC1F0000), by decide, rfl, (encodeI_mask_rt _ _ _ _).trans rfl⟩
theorem MatchesTable.bgez (rs : Reg) (offset : Half) : MatchesTable.Statement (.bgez rs offset) :=
  ⟨("BGEZ", 0x04010000, 0xFC1F0000), by decide, rfl, (encodeI_mask_rt _ _ _ _).trans rfl⟩
theorem MatchesTable.j (index : BitVec 26) : MatchesTable.Statement (.j index) :=
  ⟨("J", 0x08000000, 0xFC000000), by decide, rfl, (encodeJ_mask _ _).trans rfl⟩
theorem MatchesTable.jal (index : BitVec 26) : MatchesTable.Statement (.jal index) :=
  ⟨("JAL", 0x0C000000, 0xFC000000), by decide, rfl, (encodeJ_mask _ _).trans rfl⟩
theorem MatchesTable.jr (rs rt rd shamt : Reg) : MatchesTable.Statement (.jr rs rt rd shamt) :=
  ⟨("JR", 0x00000008, 0xFC00003F), by decide, rfl, (encodeR_mask _ _ _ _ _).trans rfl⟩
theorem MatchesTable.jalr (rs rt rd shamt : Reg) : MatchesTable.Statement (.jalr rs rt rd shamt) :=
  ⟨("JALR", 0x00000009, 0xFC00003F), by decide, rfl, (encodeR_mask _ _ _ _ _).trans rfl⟩
theorem MatchesTable.lb (rs rt : Reg) (offset : Half) : MatchesTable.Statement (.lb rs rt offset) :=
  ⟨("LB", 0x80000000, 0xFC000000), by decide, rfl, (encodeI_mask _ _ _ _).trans rfl⟩
theorem MatchesTable.lh (rs rt : Reg) (offset : Half) : MatchesTable.Statement (.lh rs rt offset) :=
  ⟨("LH", 0x84000000, 0xFC000000), by decide, rfl, (encodeI_mask _ _ _ _).trans rfl⟩
theorem MatchesTable.lw (rs rt : Reg) (offset : Half) : MatchesTable.Statement (.lw rs rt offset) :=
  ⟨("LW", 0x8C000000, 0xFC000000), by decide, rfl, (encodeI_mask _ _ _ _).trans rfl⟩
theorem MatchesTable.sb (rs rt : Reg) (offset : Half) : MatchesTable.Statement (.sb rs rt offset) :=
  ⟨("SB", 0xA0000000, 0xFC000000), by decide, rfl, (encodeI_mask _ _ _ _).trans rfl⟩
theorem MatchesTable.sh (rs rt : Reg) (offset : Half) : MatchesTable.Statement (.sh rs rt offset) :=
  ⟨("SH", 0xA4000000, 0xFC000000), by decide, rfl, (encodeI_mask _ _ _ _).trans rfl⟩
theorem MatchesTable.sw (rs rt : Reg) (offset : Half) : MatchesTable.Statement (.sw rs rt offset) :=
  ⟨("SW", 0xAC000000, 0xFC000000), by decide, rfl, (encodeI_mask _ _ _ _).trans rfl⟩
theorem MatchesTable.syscall (code : BitVec 20) : MatchesTable.Statement (.syscall code) :=
  ⟨("SYSCALL", 0x0000000C, 0xFC00003F), by decide, rfl, syscall_mask _⟩

end Sys2Proof.Laws
end

