-- ==== Sys2Proof/Laws/Step.lean ====
section
/-! SUPPORT. What one step can do, said once: the five units in their order and the commit (R80, R81), or nothing (R82). -/

namespace Sys2Proof.Machine

theorem Result.andThen_eq_next {r : Result} {f : State → Result} {t : State} :
    r.andThen f = .next t ↔ ∃ s, r = .next s ∧ f s = .next t := by
  cases r <;> simp [Result.andThen]

@[simp] theorem Result.andThen_next (s : State) (f : State → Result) : Result.andThen (.next s) f = f s := rfl

/-- A unit whose latch holds the word of an instruction runs `exec` on it. -/
theorem runUnit_instr {g : Stage} {w : Word} {i : Instr} (s : State) (h : decode w = .instr i) :
    runUnit g w s = exec i (s.at g) := by
  simp only [runUnit, h]

theorem runUnit_unimplemented {g : Stage} {w v : Word} (s : State) (h : decode w = .unimplemented v) :
    runUnit g w s = stageUnimplemented (s.at g) := by
  simp only [runUnit, h]

/-- The entry conditions of Decode (R88). -/
theorem decodeUnit_cases (s : State) :
    ((s.branchPending = true ∨ 0 < s.stall) ∧ decodeUnit s = .next ((s.at .decode).setIdEx Latch.clear)) ∨
    (s.branchPending = false ∧ s.stall = 0 ∧ decodeUnit s = runUnit .decode s.ifId.ir s) := by
  unfold decodeUnit
  cases s.branchPending
  · rcases Nat.eq_zero_or_pos s.stall with h | h <;> simp [h]
  · simp

theorem cycle_eq_next {s t : State} :
    cycle s = .next t ↔ ∃ s1 s2 s3 s4, writebackUnit s = .next s1 ∧ memoryUnit s1 = .next s2 ∧
      executeUnit s2 = .next s3 ∧ decodeUnit s3 = .next s4 ∧ t = (fetchUnit s4).commit := by
  simp only [cycle, Result.andThen_eq_next, Host.Outcome.next.injEq]
  constructor
  · rintro ⟨s1, h1, s2, h2, s3, h3, s4, h4, rfl⟩
    exact ⟨s1, s2, s3, s4, h1, h2, h3, h4, rfl⟩
  · rintro ⟨s1, s2, s3, s4, h1, h2, h3, h4, rfl⟩
    exact ⟨s1, h1, s2, h2, s3, h3, s4, h4, rfl⟩

/-- Everything a step can do. -/
theorem step_eq_next {s t : State} :
    step s = .next t ↔ (s.halted = true ∧ t = s) ∨
      (s.halted = false ∧ ∃ s1 s2 s3 s4, writebackUnit s = .next s1 ∧ memoryUnit s1 = .next s2 ∧
        executeUnit s2 = .next s3 ∧ decodeUnit s3 = .next s4 ∧ t = (fetchUnit s4).commit) := by
  unfold step stepCycle
  cases h : s.halted
  · simp [cycle_eq_next]
  · simp [eq_comm]

end Sys2Proof.Machine
end

