-- ==== Sys2Proof/Tests/Slice0.lean ====
section
/-! SUPPORT. Tests: the well-formedness check, decoding word by word, one or two effects per instruction, and a witness for the
hypotheses of every statement. Expected values are those of `spec/95_test_vectors.md` and of the instruction rules; where a
test's values are worked out from a rule instead, it says so. -/

namespace Sys2Proof.Tests

open Sys2Proof Sys2Proof.Machine Sys2Proof.Statement

/-! ### Well-formedness -/

/-- R130, R211: the word of `SLL` with every field 0 is the NOP's. -/
theorem test_wellFormed_refuses_sll_zero : wellFormed (.sll 0 0 0 0) = false := by decide

/-- Section 2.1 of the vectors: `SLL R0,R0,1` is "a real SLL". -/
theorem test_wellFormed_accepts_sll : wellFormed (.sll 0 0 0 1) = true ∧ wellFormed (.sll 0 6 7 0) = true := by decide

/-! ### Decoding: a word for every constructor -/

/-- R61, R121: bit by bit from the R layout, `ADD R3,R1,R2`. -/
theorem test_decode_bits_R : decode (0b000000_00001_00010_00011_00000_100000 : Word) = .instr (.add 1 2 3 0) := by decide

/-- R62, R134: bit by bit from the I layout, `ADDIU R1,R0,5`. -/
theorem test_decode_bits_I : decode (0b001001_00000_00001_0000000000000101 : Word) = .instr (.addiu 0 1 5) := by decide

/-- R63, R178: bit by bit from the J layout, `JAL 0x00400020`. -/
theorem test_decode_bits_J : decode (0b000011_00000100000000000000001000 : Word) = .instr (.jal 0x100008) := by decide

theorem test_decode_alu_register :
    decode 0x00A63820 = .instr (.add 5 6 7 0) ∧ decode 0x00A63821 = .instr (.addu 5 6 7 0) ∧
    decode 0x00A63822 = .instr (.sub 5 6 7 0) ∧ decode 0x00A63823 = .instr (.subu 5 6 7 0) ∧
    decode 0x00A63824 = .instr (.and 5 6 7 0) ∧ decode 0x00A63825 = .instr (.or 5 6 7 0) ∧
    decode 0x00A63826 = .instr (.xor 5 6 7 0) ∧ decode 0x00A63827 = .instr (.nor 5 6 7 0) ∧
    decode 0x00A6382A = .instr (.slt 5 6 7 0) := by decide

theorem test_decode_shift :
    decode 0x00063900 = .instr (.sll 0 6 7 4) ∧ decode 0x00063FC2 = .instr (.srl 0 6 7 31) ∧
    decode 0x00063843 = .instr (.sra 0 6 7 1) ∧ decode 0x00000040 = .instr (.sll 0 0 0 1) := by decide

theorem test_decode_alu_immediate :
    decode 0x20A7FFFF = .instr (.addi 5 7 0xFFFF) ∧ decode 0x24A78000 = .instr (.addiu 5 7 0x8000) ∧
    decode 0x28A77FFF = .instr (.slti 5 7 0x7FFF) ∧ decode 0x30A7FF00 = .instr (.andi 5 7 0xFF00) ∧
    decode 0x34A78000 = .instr (.ori 5 7 0x8000) ∧ decode 0x38A7FFFF = .instr (.xori 5 7 0xFFFF) ∧
    decode 0x3C078000 = .instr (.lui 0 7 0x8000) := by decide

theorem test_decode_muldiv :
    decode 0x00A60018 = .instr (.mult 5 6 0 0) ∧ decode 0x00A60019 = .instr (.multu 5 6 0 0) ∧
    decode 0x00A6001A = .instr (.div 5 6 0 0) ∧ decode 0x00A6001B = .instr (.divu 5 6 0 0) := by decide

theorem test_decode_hilo :
    decode 0x00001810 = .instr (.mfhi 0 0 3 0) ∧ decode 0x00001812 = .instr (.mflo 0 0 3 0) ∧
    decode 0x00200011 = .instr (.mthi 1 0 0 0) ∧ decode 0x00200013 = .instr (.mtlo 1 0 0 0) := by decide

theorem test_decode_branch :
    decode 0x10A60002 = .instr (.beq 5 6 2) ∧ decode 0x14A60002 = .instr (.bne 5 6 2) ∧
    decode 0x18A00002 = .instr (.blez 5 0 2) ∧ decode 0x1CA00002 = .instr (.bgtz 5 0 2) ∧
    decode 0x04A00002 = .instr (.bltz 5 2) ∧ decode 0x04A10002 = .instr (.bgez 5 2) := by decide

theorem test_decode_jump :
    decode 0x08100004 = .instr (.j 0x100004) ∧ decode 0x0C100004 = .instr (.jal 0x100004) ∧
    decode 0x03E00008 = .instr (.jr 31 0 0 0) ∧ decode 0x00A02809 = .instr (.jalr 5 0 5 0) := by decide

theorem test_decode_load_store :
    decode 0x808B0003 = .instr (.lb 4 11 3) ∧ decode 0x848F0001 = .instr (.lh 4 15 1) ∧
    decode 0x8C93FFFC = .instr (.lw 4 19 0xFFFC) ∧ decode 0xA0880009 = .instr (.sb 4 8 9) ∧
    decode 0xA488000E = .instr (.sh 4 8 14) ∧ decode 0xAC887FFF = .instr (.sw 4 8 0x7FFF) := by decide

theorem test_decode_system : decode 0x0000000C = .instr (.syscall 0) ∧ decode 0x00000000 = .instr .nop := by decide

/-- Section 2.5 of the vectors: the unimplemented words. -/
theorem test_decode_unimplemented :
    decode 0xFC000000 = .unimplemented 0xFC000000 ∧ decode 0x0000000D = .unimplemented 0x0000000D ∧
    decode 0x00A63804 = .unimplemented 0x00A63804 ∧ decode 0x00A6382B = .unimplemented 0x00A6382B ∧
    decode 0x2CA70001 = .unimplemented 0x2CA70001 ∧ decode 0x90A70000 = .unimplemented 0x90A70000 ∧
    decode 0x04B00002 = .unimplemented 0x04B00002 ∧ decode 0x42000018 = .unimplemented 0x42000018 ∧
    decode 0x70A63802 = .unimplemented 0x70A63802 := by decide

/-- R70: the ignored fields do not change what a word decodes to, but are kept (log 9). -/
theorem test_decode_ignored_fields :
    decode 0x00221FE0 = .instr (.add 1 2 3 31) ∧ decode 0x3FE48001 = .instr (.lui 31 4 0x8001) ∧
    decode 0x03FFFFCC = .instr (.syscall 0xFFFFF) := by decide

/-! ### A state with some registers preset, and one instruction passing through the four units -/

/-- The reset state with some registers preset, in both copies. -/
def preset (regs : List (Reg × Word)) : State :=
  let x := regs.foldl (fun x c => writeReg x c.1 c.2) (Vector.replicate 32 0)
  let a : Arch := { Arch.reset recommendedParams with x := x }
  { State.reset with cur := a, nxt := a }

/-- The word `w`, fetched from address `at_`, in `IF_ID`. -/
def holding (w at_ : Word) (s : State) : State := s.setIfId { Latch.clear with ir := w, pc := at_ }

/-- The instruction in `IF_ID` passes through the four units. -/
def passed (s : State) : State :=
  match decode s.ifId.ir with
  | .instr i => settled s (passage i s)
  | .unimplemented _ => s

/-- `x[7]` after the word `w`, with `x[5]` and `x[6]` preset: the convention of section 2 of the vectors. -/
def seven (w x5 x6 : Word) : Word := readReg (passed (holding w 0x00400000 (preset [(5, x5), (6, x6)]))).nxt.x 7

/-- HI and LO after the word `w`, with `x[5]` and `x[6]` preset. -/
def hiLo (w x5 x6 : Word) : Word × Word :=
  let t := passed (holding w 0x00400000 (preset [(5, x5), (6, x6)]))
  (t.nxt.hi, t.nxt.lo)

/-- The target of the transfer that the word `w`, at address `a`, raises, if it raises one. -/
def goesTo (w a x5 x6 : Word) : Option Word :=
  let t := passed (holding w a (preset [(5, x5), (6, x6), (31, 0x00400008)]))
  if t.branchPending then some t.branchTarget else none

/-- The two words of section 2.4 of the vectors at `0x10010000`, and the registers preset there. -/
def loadState : State :=
  ((preset [(4, 0x10010000), (8, 0x12345678)]).loadWord 0x10010000 0x80112233).loadWord 0x10010004 0x00000044

/-- `x[r]` after the word `w` in that state. -/
def loaded (w : Word) (r : Reg) : Word := readReg (passed (holding w 0x00400000 loadState)).nxt.x r

/-- The word at `a` after the word `w`, with `0xAABBCCDD` at `0x10010008`. -/
def stored (w a : Word) : Word :=
  memRead32 recommendedParams (passed (holding w 0x00400000 (loadState.loadWord 0x10010008 0xAABBCCDD))).mem a

/-! ### ALU instructions (section 2.1 of the vectors) -/

theorem test_add_wraps : seven 0x00A63820 0x7FFFFFFF 1 = 0x80000000 ∧ seven 0x00A63820 0xFFFFFFFF 1 = 0 := by decide

/-- `ADD R5,R5,R5`: a source that is the destination. -/
theorem test_add_same_register :
    readReg (passed (holding 0x00A52820 0x00400000 (preset [(5, 5)]))).nxt.x 5 = 0x0000000A := by decide

theorem test_addu : seven 0x00A63821 0xFFFFFFFF 2 = 1 := by decide

theorem test_sub : seven 0x00A63822 0 1 = 0xFFFFFFFF ∧ seven 0x00A63822 0x80000000 1 = 0x7FFFFFFF := by decide

theorem test_subu : seven 0x00A63823 3 0xFFFFFFFF = 4 ∧ seven 0x00A63823 10 10 = 0 := by decide

theorem test_and : seven 0x00A63824 0xFF00FF00 0x0FF00FF0 = 0x0F000F00 := by decide

theorem test_or : seven 0x00A63825 0xFF00FF00 0x0FF00FF0 = 0xFFF0FFF0 := by decide

theorem test_xor : seven 0x00A63826 0xFF00FF00 0x0FF00FF0 = 0xF0F0F0F0 := by decide

theorem test_nor : seven 0x00A63827 0xFF00FF00 0x0FF00FF0 = 0x000F000F ∧ seven 0x00003827 5 6 = 0xFFFFFFFF := by decide

theorem test_slt_is_signed : seven 0x00A6382A 0x80000000 0x7FFFFFFF = 1 ∧ seven 0x00A6382A 0x7FFFFFFF 0x80000000 = 0 := by
  decide

theorem test_slt_equal : seven 0x00A6382A 5 5 = 0 := by decide

theorem test_sll : seven 0x00063900 0 0xF000000A = 0x000000A0 ∧ seven 0x00063FC0 0 3 = 0x80000000 := by decide

theorem test_srl : seven 0x00063902 0 0x80000000 = 0x08000000 ∧ seven 0x00063FC2 0 0x80000000 = 1 := by decide

theorem test_sra : seven 0x00063903 0 0x80000000 = 0xF8000000 ∧ seven 0x00063903 0 0x40000000 = 0x04000000 := by decide

theorem test_sra_ends : seven 0x00063FC3 0 0x80000001 = 0xFFFFFFFF ∧ seven 0x00063803 0 0x80000001 = 0x80000001 := by
  decide

theorem test_addi : seven 0x20A70001 0x7FFFFFFF 0 = 0x80000000 ∧ seven 0x20A7FFFF 0 0 = 0xFFFFFFFF := by decide

theorem test_addiu_sign_extends : seven 0x24A78000 0 0 = 0xFFFF8000 ∧ seven 0x24A77FFF 0x7FFFFFFF 0 = 0x80007FFE := by
  decide

theorem test_slti : seven 0x28A7FFFF 0xFFFFFFFE 0 = 1 ∧ seven 0x28A7FFFF 0 0 = 0 := by decide

theorem test_andi_zero_extends : seven 0x30A78000 0xFFFFFFFF 0 = 0x00008000 := by decide

theorem test_ori_zero_extends : seven 0x34A78000 0x10010000 0 = 0x10018000 := by decide

theorem test_xori_zero_extends : seven 0x38A78000 0xFFFFFFFF 0 = 0xFFFF7FFF := by decide

theorem test_lui : seven 0x3C07FFFF 0 0 = 0xFFFF0000 ∧ seven 0x3C078000 0 0 = 0x80000000 := by decide

/-! ### Multiply, divide, HI and LO (section 2.2 of the vectors) -/

theorem test_mult_negative : hiLo 0x00A60018 0xFFFFFFF9 2 = (0xFFFFFFFF, 0xFFFFFFF2) := by decide

theorem test_mult_corner : hiLo 0x00A60018 0x80000000 0x80000000 = (0x40000000, 0) := by decide

theorem test_multu : hiLo 0x00A60019 0xFFFFFFF9 2 = (1, 0xFFFFFFF2) := by decide

theorem test_multu_corner : hiLo 0x00A60019 0xFFFFFFFF 0xFFFFFFFF = (0xFFFFFFFE, 1) := by decide

theorem test_div_signs :
    hiLo 0x00A6001A 0xFFFFFFF9 2 = (0xFFFFFFFF, 0xFFFFFFFD) ∧ hiLo 0x00A6001A 7 0xFFFFFFFE = (1, 0xFFFFFFFD) := by decide

theorem test_div_corners :
    hiLo 0x00A6001A 0x80000000 0xFFFFFFFF = (0, 0x80000000) ∧ hiLo 0x00A6001A 5 0 = (0, 0) := by decide

theorem test_divu : hiLo 0x00A6001B 0xFFFFFFF9 2 = (1, 0x7FFFFFFC) := by decide

theorem test_divu_corner : hiLo 0x00A6001B 0x80000000 0xFFFFFFFF = (0x80000000, 0) := by decide

/-- A divide by zero leaves both registers: the values of section 2.2 of the vectors. -/
theorem test_divide_by_zero :
    let s := ((preset [(5, 5)]).setNxtHi 0x1111).setNxtLo 0x2222
    (passed (holding 0x00A6001A 0x00400000 s)).nxt.hi = 0x1111 ∧
    (passed (holding 0x00A6001B 0x00400000 s)).nxt.lo = 0x2222 := by decide

theorem test_mthi_mtlo :
    hiLo 0x00A00011 0x00010000 0 = (0x00010000, 0) ∧ hiLo 0x00A00013 0x00010000 0 = (0, 0x00010000) := by decide

/-- R15: MFHI and MFLO read the committed copy, not the one being written (values worked out from the rule). -/
theorem test_mfhi_mflo_read_committed :
    let s := (((preset []).setNxtHi 3).setNxtLo 4).commit
    readReg (passed (holding 0x00003810 0x00400000 (s.setNxtHi 9))).nxt.x 7 = 3 ∧
    readReg (passed (holding 0x00003812 0x00400000 (s.setNxtLo 9))).nxt.x 7 = 4 := by decide

/-! ### Branches and jumps (section 2.3 of the vectors) -/

theorem test_beq : goesTo 0x10A60002 0x00400000 5 5 = some 0x00400008 ∧ goesTo 0x10A60002 0x00400000 5 6 = none := by decide

theorem test_bne : goesTo 0x14A60002 0x00400000 5 6 = some 0x00400008 ∧ goesTo 0x14A60002 0x00400000 5 5 = none := by decide

theorem test_blez :
    goesTo 0x18A00002 0x00400000 0 0 = some 0x00400008 ∧ goesTo 0x18A00002 0x00400000 1 0 = none ∧
    goesTo 0x18A00002 0x00400000 0x80000000 0 = some 0x00400008 := by decide

theorem test_bgtz :
    goesTo 0x1CA00002 0x00400000 0 0 = none ∧ goesTo 0x1CA00002 0x00400000 0x7FFFFFFF 0 = some 0x00400008 ∧
    goesTo 0x1CA00002 0x00400000 0xFFFFFFFF 0 = none := by decide

theorem test_bltz :
    goesTo 0x04A00002 0x00400000 0x80000000 0 = some 0x00400008 ∧ goesTo 0x04A00002 0x00400000 0 0 = none := by decide

theorem test_bgez :
    goesTo 0x04A10002 0x00400000 0 0 = some 0x00400008 ∧ goesTo 0x04A10002 0x00400000 0xFFFFFFFF 0 = none := by decide

/-- The table of offsets: backwards, the largest negative offset, and the wrap modulo 2^32 (`BEQ R5,R6` taken). -/
theorem test_branch_offsets :
    goesTo 0x10A6FFFF 0x00400000 0 0 = some 0x003FFFFC ∧ goesTo 0x10A68000 0x00400000 0 0 = some 0x003E0000 ∧
    goesTo 0x10A60002 0xFFFFFFFC 0 0 = some 0x00000004 := by decide

/-- The upper four bits are those of the jump's own address. -/
theorem test_j_region :
    goesTo 0x08100008 0x00400000 0 0 = some 0x00400020 ∧ goesTo 0x08100008 0x80000100 0 0 = some 0x80400020 ∧
    goesTo 0x08100008 0x0FFFFFFC 0 0 = some 0x00400020 := by decide

theorem test_jal :
    goesTo 0x0C100004 0x00400004 0 0 = some 0x00400010 ∧
    readReg (passed (holding 0x0C100004 0x00400004 (preset []))).nxt.x 31 = 0x00400008 := by decide

theorem test_jr : goesTo 0x03E00008 0x00400010 0 0 = some 0x00400008 := by decide

/-- JALR with `rd == rs`: to the old value, with the link in the same register. -/
theorem test_jalr_same_register :
    goesTo 0x00A02809 0x00400008 0x00400014 0 = some 0x00400014 ∧
    readReg (passed (holding 0x00A02809 0x00400008 (preset [(5, 0x00400014)]))).nxt.x 5 = 0x0040000C := by decide

/-- JALR with `rd = 0`: the link goes into R0. -/
theorem test_jalr_register_zero :
    readReg (passed (holding 0x00A00009 0x00400008 (preset [(5, 0x00400010)]))).nxt.x 0 = 0x0040000C := by decide

/-! ### Loads and stores (section 2.4 of the vectors) -/

theorem test_lb : loaded 0x808B0003 11 = 0xFFFFFF80 ∧ loaded 0x808C0001 12 = 0x22 := by decide

theorem test_lh : loaded 0x848E0002 14 = 0xFFFF8011 ∧ loaded 0x84900003 16 = 0x00004480 := by decide

theorem test_lw_unaligned : loaded 0x8C920001 18 = 0x44801122 := by decide

/-- `LW R19,-4(R4)` outside every region, and `LW R4,0(R4)` with `rt == rs`. -/
theorem test_lw_unmapped_and_same_register : loaded 0x8C93FFFC 19 = 0 ∧ loaded 0x8C840000 4 = 0x80112233 := by decide

theorem test_sb : stored 0xA0880009 0x10010008 = 0xAABB78DD := by decide

/-- Row 20 of the vectors (`SH R8,17(R4)`), at the word used here: an odd address. -/
theorem test_sh_odd : stored 0xA4880009 0x10010008 = 0xAA5678DD := by decide

/-- `SW R8,32767(R4)`: unaligned, the largest displacement. -/
theorem test_sw_unaligned : stored 0xAC887FFF 0x10017FFF = 0x12345678 := by decide

/-- `SW` at `0x1000FFFE`: the two bytes below the data region are dropped (the values of section 2.4). -/
theorem test_sw_straddles_region :
    let m := memWrite recommendedParams [] 0x1000FFFE 4 0x12345678
    m = [(0x10010000, 0x34), (0x10010001, 0x12)] ∧ memRead32 recommendedParams m 0x1000FFFE = 0x12340000 := by decide

/-! ### System (section 2.5 of the vectors) -/

theorem test_syscall_halts :
    (passed (holding 0x0000000C 0x00400000 (preset [(2, 10)]))).halted = true ∧
    (passed (holding 0x0000000C 0x00400000 (preset [(2, 9)]))).halted = false := by decide

/-- R210: all 32 bits of register 2 are compared (value worked out from the rule). -/
theorem test_syscall_compares_all_bits :
    (passed (holding 0x0000000C 0x00400000 (preset [(2, 0x0001000A)]))).halted = false := by decide

theorem test_nop : (passed (preset [(5, 1)])).nxt = (preset [(5, 1)]).nxt := by decide

/-! ### The host's questions -/

theorem test_decodeTableWord : decodeTableWord 32 0x00A63820 = some (.add 5 6 7 0) ∧ decodeTableWord 32 0xFC000000 = none := by
  decide

/-- The step right after `withFetchWord` runs the word in all four units: the result is in the register file. -/
theorem test_withFetchWord_runs :
    readReg (settled State.reset (step (State.reset.withFetchWord 32 0x24070005))).cur.x 7 = 5 := by decide

/-! ### Witnesses: for every statement with hypotheses, states and operands that meet them all -/

/-- What a step answers. -/
def stepped (s : State) : State := settled s (step s)

/-- What `drain` answers. -/
def drained (s : State) : State := settled s (drain s)

/-- The latch Decode leaves behind for the word `w` from address `a`, its sources all 0. -/
def slot (w a : Word) : Latch :=
  match decode w with
  | .instr .nop => Latch.clear
  | .instr i => issuedFor i (holding w a State.reset) (fun _ => 0)
  | .unimplemented _ => { Latch.clear with ir := w, pc := a }

/-- A pipeline with the words `f`, `d`, `e`, `m` in `IF_ID`, `ID_EX`, `EX_MEM`, `MEM_WB`, at consecutive addresses. -/
def pipe (on : Bool) (f d e m : Word) : State :=
  let a : Arch := { (preset [(2, 10)]).cur with pc := 0x00400010 }
  { State.reset with
    cur := a, nxt := a, forwarding := on, memWb := slot m 0x00400000, exMem := slot e 0x00400004,
    idEx := slot d 0x00400008, ifId := { Latch.clear with ir := f, pc := 0x0040000C } }

/-- `ADD R3,R1,R2` behind `ADDIU R2`, `ADDIU R1` and a NOP, forwarding on: nothing stalls, no transfer. -/
def flowing : State := pipe true 0x00221820 0x2402000A 0x24010005 0

/-- `BEQ R0,R0,2` in Execute. -/
def branching : State := pipe false 0x24010001 0x10000002 0 0

/-- `ADD R3,R1,R2` directly behind `ADDIU R1`, forwarding off: Decode sets a stall of 2. -/
def stalling : State := pipe false 0x00221820 0x24010005 0 0

/-- Parameters with one loaded byte, the first byte of the data region. -/
def oneByte : Config.Params := { recommendedParams with image := [(0x10010000, 0x41)] }

theorem witness_LoaderFillsZeroedMemory :
    (∀ c ∈ oneByte.image, BitVec.ofNat 32 c.1 ≠ (0x10010001 : Word)) ∧
    oneByte.image = [] ++ (0x10010000, 0x41) :: [] ∧
    (regionOf oneByte (BitVec.ofNat 32 0x10010000)).isSome = true := by decide

theorem witness_HaltedStepChangesNothing :
    State.reset.halt.halted = true ∧ State.reset.halted = false ∧ step State.reset = .next (stepped State.reset) :=
  ⟨rfl, rfl, rfl⟩

theorem witness_ForwardingToggleKeepsTheProgram : drain flowing = .next (drained flowing) := rfl

/-- Both clauses: Decode runs its instruction; Decode is flushed. -/
theorem witness_StepRunsDecodedInstructions :
    (flowing.halted = false ∧ decode flowing.memWb.ir = .instr .nop ∧ decode flowing.exMem.ir = .instr (.addiu 0 1 5) ∧
      decode flowing.idEx.ir = .instr (.addiu 0 2 10) ∧ decode flowing.ifId.ir = .instr (.add 1 2 3 0) ∧
      (beforeDecode flowing).branchPending = false ∧ (beforeDecode flowing).stall = 0) ∧
    (branching.halted = false ∧ decode branching.memWb.ir = .instr .nop ∧ decode branching.exMem.ir = .instr .nop ∧
      decode branching.idEx.ir = .instr (.beq 0 0 2) ∧ decode branching.ifId.ir = .instr (.addiu 0 1 1) ∧
      (beforeDecode branching).branchPending = true) := by decide

/-- Also the witness of `UnimplementedSeenIsSticky` and `HaltExactlyBySyscall`. -/
theorem witness_CycleEndsWithCommit : State.reset.halted = false ∧ step State.reset = .next (stepped State.reset) :=
  ⟨rfl, rfl⟩

/-- A latch that writes a register; a SYSCALL and a bubble, which do not. -/
theorem witness_WritesRegister :
    WritesRegister (slot 0x24010005 0) ∧ ¬WritesRegister (slot 0x0000000C 0) ∧ ¬WritesRegister Latch.clear :=
  ⟨⟨by decide, fun ⟨_, h⟩ => absurd ((show decode 0x24010005 = .instr (.addiu 0 1 5) by decide).symm.trans h) (by simp),
    by decide⟩, fun h => h.2.1 ⟨0, by decide⟩, fun h => h.1 rfl⟩

/-- A store of each size and another instruction in Memory; writers of HI, of LO and another instruction, a transfer in
Execute; a stall and an unimplemented word in Decode; a pending transfer in Fetch. -/
theorem witness_StageUnitsWriteOnlyTheirOwnState :
    storeSize 0xA0230000 = 1 ∧ storeSize 0xA4230000 = 2 ∧ storeSize 0xAC230000 = 4 ∧ storeSize 0x8C230000 = 0 ∧
    writesHi 0x00630018 = true ∧ writesLo 0x00630018 = true ∧ writesHi 0x00200011 = true ∧ writesLo 0x00200011 = false ∧
    writesHi 0x00200013 = false ∧ writesLo 0x00200013 = true ∧ writesHi 0x24010005 = false ∧
    isTransfer 0x10000002 = true ∧ isTransfer 0x24010005 = false ∧
    (settled stalling (decodeUnit (beforeDecode stalling))).stall = 2 ∧
    decode 0xFC000000 = .unimplemented 0xFC000000 ∧ (beforeFetch branching).branchPending = true := by decide

theorem witness_StageUnitsWriteOnlyTheirOwnState_answers :
    writebackUnit flowing = .next (settled flowing (writebackUnit flowing)) ∧
    memoryUnit flowing = .next (settled flowing (memoryUnit flowing)) ∧
    executeUnit branching = .next (settled branching (executeUnit branching)) ∧
    decodeUnit flowing = .next (settled flowing (decodeUnit flowing)) := ⟨rfl, rfl, rfl, rfl⟩

/-- Two clauses: a taken transfer; a fetch. -/
theorem witness_FetchRedirectsHoldsOrReads :
    (PipelineInv branching ∧ branching.halted = false ∧ (executed branching).branchPending = true) ∧
    (PipelineInv flowing ∧ flowing.halted = false ∧ (executed flowing).branchPending = false ∧
      (beforeFetch flowing).stall = 0) := by decide

/-- The clauses of the hold: the stall Decode has just set; a stall left over from the cycle before. -/
theorem witness_FetchRedirectsHoldsOrReads_hold :
    (PipelineInv stalling ∧ stalling.halted = false ∧ (executed stalling).branchPending = false ∧ stalling.stall = 0 ∧
      (beforeFetch stalling).stall = 2) ∧
    (PipelineInv (stepped stalling) ∧ (stepped stalling).halted = false ∧
      (executed (stepped stalling)).branchPending = false ∧ (stepped stalling).stall = 1) := by decide

theorem witness_FetchRedirectsHoldsOrReads_step :
    step branching = .next (stepped branching) ∧ step stalling = .next (stepped stalling) ∧
    step (stepped stalling) = .next (stepped (stepped stalling)) ∧ step flowing = .next (stepped flowing) :=
  ⟨rfl, rfl, rfl, rfl⟩

theorem witness_DecodeEncodeRoundTrip : WellFormed (.sll 0 0 0 1) ∧ WellFormed (.lw 31 31 0xFFFF) := by decide

theorem witness_EncodeUndoesDecode : decode 0x00000040 = .instr (.sll 0 0 0 1) := by decide

theorem witness_DecodeBytesOfEncoding : WellFormed (.syscall 0xFFFFF) := by decide

/-- One byte listed; an address outside every region. -/
theorem witness_MemoryIsByteWiseLittleEndian :
    Memory.wf [(0x10010000, 0x41)] = true ∧ regionOf recommendedParams 0x1000FFFF = none ∧
    (regionOf recommendedParams 0x10010000).isSome = true := by decide

theorem witness_EveryStepKeepsMemoryCanonical :
    MemoryInv loadState ∧ step loadState = .next (stepped loadState) := ⟨by decide, rfl⟩

theorem witness_EveryStepKeepsPipelineInvariant : PipelineInv flowing ∧ step flowing = .next (stepped flowing) :=
  ⟨by decide, rfl⟩

/-- An instruction in memory at the address of `IF_ID`. -/
def coherent : State := flowing.loadWord 0x0040000C 0x00221820

theorem witness_CycleRefinesSequentialMachine :
    (PipelineInv coherent ∧ coherent.halted = false ∧ coherent.cur.pc ≠ 0 ∧ FetchCoherent coherent (drained coherent)) ∧
    step coherent = .next (stepped coherent) ∧ drain coherent = .next (drained coherent) ∧
    drain (stepped coherent) = .next (drained (stepped coherent)) := ⟨by decide, rfl, rfl, rfl⟩

theorem witness_RunRefinesSequentialMachine :
    PipelineInv coherent ∧
    (∀ m u du, m < 1 → steps m coherent = .next u → drain u = .next du → u.cur.pc ≠ 0 ∧ FetchCoherent u du) ∧
    steps 1 coherent = .next (stepped coherent) ∧ drain coherent = .next (drained coherent) ∧
    drain (stepped coherent) = .next (drained (stepped coherent)) := by
  refine ⟨by decide, fun m u du hm hu hd => ?_, rfl, rfl, rfl⟩
  obtain rfl : m = 0 := by omega
  cases hu
  have h : drain coherent = .next (drained coherent) := rfl
  cases h.symm.trans hd
  decide

/-- An empty pipe, `ADDIU R7,R0,5` at the reset address, NOPs behind it. -/
def lone : State := State.reset.loadWord 0x00400000 0x24070005

theorem witness_SingleInstructionMatchesDirectEvaluation :
    (Quiet lone ∧ decode (memRead32 lone.params lone.mem lone.cur.pc) = .instr (.addiu 0 7 5) ∧
      memRead32 lone.params lone.mem (lone.cur.pc + 4) = 0 ∧ memRead32 lone.params lone.mem (lone.cur.pc + 8) = 0) ∧
    ∃ t, steps 5 lone = .next t := ⟨by decide, _, rfl⟩

theorem witness_StageOrderEqualsClockedHardware : PipelineInv flowing ∧ flowing.halted = false := by decide

/-- Also for the statements about one instruction passing alone, whose one hypothesis is `NoProducer`. -/
theorem witness_PassageHasArchitecturalEffect :
    NoProducer loadState ∧ loadState.nxt = loadState.cur ∧ loadState.branchPending = false := by decide

/-- `AddAndSubtract`, `BitwiseLogic`, `SignedCompare`, `AddImmediate`, `LogicImmediateAndUpper`, `ProductFillsHiAndLo`,
`HiLoMoves`, `JumpsToRegionTarget`, `JumpsToRegister`, `LoadsFillTheRegister` with any operands. -/
theorem witness_NoProducer : NoProducer (preset [(1, 0x80000000), (2, 1)]) := by decide

theorem witness_ShiftsByConstant : NoProducer (preset [(6, 0x80000000)]) ∧ WellFormed (.sll 0 6 7 31) := by decide

/-- The three clauses: a zero divisor, `-2^31 / -1`, and its neighbour `-2^31 / 1`. -/
theorem witness_SignedDivision :
    let s := preset [(1, 0x80000000), (2, 0), (3, 0xFFFFFFFF), (4, 1)]
    NoProducer s ∧ readReg s.nxt.x 2 = 0 ∧ (readReg s.nxt.x 1 = 0x80000000 ∧ readReg s.nxt.x 3 = 0xFFFFFFFF) ∧
    (readReg s.nxt.x 4 ≠ 0 ∧ ¬(readReg s.nxt.x 1 = 0x80000000 ∧ readReg s.nxt.x 4 = 0xFFFFFFFF)) := by decide

theorem witness_UnsignedDivision :
    let s := preset [(1, 0x80000000), (2, 0), (3, 1)]
    NoProducer s ∧ readReg s.nxt.x 2 = 0 ∧ readReg s.nxt.x 3 ≠ 0 := by decide

theorem witness_BranchesOnEquality :
    let s := preset [(1, 5), (2, 5), (3, 6)]
    NoProducer s ∧ readReg s.nxt.x 1 = readReg s.nxt.x 2 ∧ readReg s.nxt.x 1 ≠ readReg s.nxt.x 3 := by decide

/-- Zero, the largest positive and the most negative value: each condition true and false. -/
theorem witness_BranchesOnSign :
    let s := preset [(1, 0), (2, 0x7FFFFFFF), (3, 0x80000000)]
    NoProducer s ∧ readReg s.nxt.x 1 = 0 ∧ (readReg s.nxt.x 2).msb = false ∧ readReg s.nxt.x 2 ≠ 0 ∧
    (readReg s.nxt.x 3).msb = true := by decide

theorem witness_StoresChangeOnlyTheirBytes : NoProducer loadState ∧ loadState.mem.wf = true := by decide

theorem witness_StoreUnitWritesAtAluOutput :
    loadState.mem.wf = true ∧ ∀ n ∈ [1, 2, 4], ∃ i,
      (i, n) ∈ [(Instr.sb 4 8 0, 1), (Instr.sh 4 8 0, 2), (Instr.sw 4 8 0, 4)] :=
  ⟨by decide, by simp⟩

theorem witness_NopLeavesBubbles :
    State.reset.stall = 0 ∧ State.reset.branchPending = false ∧ State.reset.ifId.ir = 0 := by decide

/-- An unimplemented word in every latch. -/
theorem witness_UnimplementedWordIsReportedNoOp :
    let s := pipe false 0xFC000000 0xFC000000 0xFC000000 0xFC000000
    decode s.ifId.ir = .unimplemented 0xFC000000 ∧ s.branchPending = false ∧ s.stall = 0 ∧
    decode s.idEx.ir = .unimplemented 0xFC000000 ∧ decode s.exMem.ir = .unimplemented 0xFC000000 ∧
    decode s.memWb.ir = .unimplemented 0xFC000000 ∧ s.memWb.regWrite = false := by decide

/-- Both sides of the equivalence: an unimplemented word issues; it is flushed. -/
theorem witness_UnimplementedSeenIsSticky :
    let s := pipe false 0xFC000000 0 0 0
    let f := pipe false 0xFC000000 0x10000002 0 0
    s.halted = false ∧ decode s.ifId.ir = .unimplemented 0xFC000000 ∧ s.stall = 0 ∧ (executed s).branchPending = false ∧
    f.halted = false ∧ (executed f).branchPending = true := by decide

/-- A halting SYSCALL in `MEM_WB`, `SW R3,0(R1)` and `MULT R3,R3` behind it: the halt vector of section 3.2. -/
def halting : State := pipe false 0xFC000000 0x00630018 0xAC230000 0x0000000C

theorem witness_HaltExactlyBySyscall :
    halting.halted = false ∧ IsSyscall halting.memWb.ir ∧ readReg halting.cur.x 2 = 10 ∧
    step halting = .next (stepped halting) ∧ State.reset.halt.halted = true := ⟨rfl, ⟨0, by decide⟩, by decide, rfl, rfl⟩

theorem witness_HaltingCycleFinishesTheStages :
    PipelineInv halting ∧ halting.halted = false ∧ IsSyscall halting.memWb.ir ∧ readReg halting.cur.x 2 = 10 ∧
    step halting = .next (stepped halting) ∧ decode halting.exMem.ir = .instr (.sw 1 3 0) ∧
    decode halting.idEx.ir = .instr (.mult 3 3 0 0) :=
  ⟨by decide, rfl, ⟨0, by decide⟩, by decide, rfl, by decide, by decide⟩

/-- The other clauses: SB with MULTU behind it; SH with a taken branch behind it; no store. -/
theorem witness_HaltingCycleFinishesTheStages_clauses :
    (∀ s ∈ [pipe false 0 0x00630019 0xA0230000 0x0000000C, pipe false 0 0x10000002 0xA4230000 0x0000000C,
        pipe false 0 0 0 0x0000000C],
      PipelineInv s ∧ s.halted = false ∧ decode s.memWb.ir = .instr (.syscall 0) ∧ readReg s.cur.x 2 = 10) ∧
    decode 0xA0230000 = .instr (.sb 1 3 0) ∧ decode 0x00630019 = .instr (.multu 3 3 0 0) ∧
    decode 0xA4230000 = .instr (.sh 1 3 0) ∧
    (executed (pipe false 0 0x10000002 0xA4230000 0x0000000C)).branchPending = true ∧ storeSize 0 = 0 := by decide

theorem witness_HaltingCycleFinishesTheStages_steps :
    (∃ t, step (pipe false 0 0x00630019 0xA0230000 0x0000000C) = .next t) ∧
    (∃ t, step (pipe false 0 0x10000002 0xA4230000 0x0000000C) = .next t) ∧
    (∃ t, step (pipe false 0 0 0 0x0000000C) = .next t) := ⟨⟨_, rfl⟩, ⟨_, rfl⟩, ⟨_, rfl⟩⟩

theorem witness_DecodeIssuesByTheTable :
    let s := pipe false 0x00221820 0 0 0
    Instr.add 1 2 3 0 ≠ .nop ∧ s.ifId.ir = encode (.add 1 2 3 0) ∧ NoProducer s := by decide

/-- The three clauses: a producer in `EX_MEM`; only in `MEM_WB`; none. -/
theorem witness_StallsWithForwardingDisabled :
    (let s := pipe false 0x00221820 0 0x24010005 0;
      s.forwarding = false ∧ 1 ∈ sourcesOf (.add 1 2 3 0) ∧ Produces s.exMem 1) ∧
    (let s := pipe false 0x00221820 0 0 0x24010005;
      s.forwarding = false ∧ (∀ r ∈ sourcesOf (.add 1 2 3 0), ¬Produces s.exMem r) ∧
      1 ∈ sourcesOf (.add 1 2 3 0) ∧ Produces s.memWb 1) ∧
    (let s := pipe false 0x00221820 0 0 0;
      s.forwarding = false ∧ (∀ r ∈ sourcesOf (.add 1 2 3 0), ¬Produces s.exMem r ∧ ¬Produces s.memWb r) ∧
      Instr.add 1 2 3 0 ≠ .nop ∧ s.ifId.ir = encode (.add 1 2 3 0)) := by
  simp only [Produces]; decide

/-- The clauses: a load in `EX_MEM`; another producer there; none there. -/
theorem witness_ForwardsWithForwardingEnabled :
    (let s := pipe true 0x00221820 0 0x8C010000 0;
      s.forwarding = true ∧ 1 ∈ sourcesOf (.add 1 2 3 0) ∧ Produces s.exMem 1 ∧ isLoadWord s.exMem.ir = true) ∧
    (let s := pipe true 0x00221820 0 0x24010005 0;
      s.forwarding = true ∧ isLoadWord s.exMem.ir = false ∧ Instr.add 1 2 3 0 ≠ .nop ∧
      s.ifId.ir = encode (.add 1 2 3 0)) ∧
    (let s := pipe true 0x00221820 0 0 0x8C010000;
      s.forwarding = true ∧ (∀ r ∈ sourcesOf (.add 1 2 3 0), ¬Produces s.exMem r) ∧ Instr.add 1 2 3 0 ≠ .nop ∧
      s.ifId.ir = encode (.add 1 2 3 0)) := by
  simp only [Produces]; decide

/-- `ADD R3,R1,R2` directly behind `d`. -/
def behind (on : Bool) (d : Word) : State := pipe on 0x00221820 d 0 0

/-- The hypotheses on the state, met behind an ALU producer with forwarding off and on, and behind a load with it on. -/
theorem witness_ConsumerDirectlyBehindProducer :
    ∀ s ∈ [behind false 0x24010005, behind true 0x8C010000, behind true 0x24010005],
      PipelineInv s ∧ s.halted = false ∧ s.stall = 0 ∧ decode s.ifId.ir = .instr (.add 1 2 3 0) ∧
      (∃ r ∈ sourcesOf (.add 1 2 3 0), s.idEx.regWrite = true ∧ s.idEx.registerRd = r) ∧
      (executed s).branchPending = false ∧ decode s.memWb.ir = .instr .nop ∧ decode s.exMem.ir = .instr .nop := by decide

theorem notSyscall_of_nop {w : Word} (h : decode w = .instr .nop) : ¬IsSyscall w := by
  rintro ⟨_, hc⟩
  exact absurd (h.symm.trans hc) (by simp)

theorem witness_ConsumerDirectlyBehindProducer_steps :
    (let s := behind false 0x24010005;
      ∃ t1 t2 t3, step s = .next t1 ∧ step t1 = .next t2 ∧ step t2 = .next t3 ∧ s.forwarding = false) ∧
    (let s := behind true 0x8C010000;
      ∃ t1 t2 t3, step s = .next t1 ∧ step t1 = .next t2 ∧ step t2 = .next t3 ∧ isLoadWord s.idEx.ir = true) ∧
    (let s := behind true 0x24010005;
      ∃ t1 t2 t3, step s = .next t1 ∧ step t1 = .next t2 ∧ step t2 = .next t3 ∧ isLoadWord s.idEx.ir = false) :=
  ⟨⟨_, _, _, rfl, rfl, rfl, rfl⟩, ⟨_, _, _, rfl, rfl, rfl, by decide⟩, ⟨_, _, _, rfl, rfl, rfl, by decide⟩⟩

/-- `ADD R3,R1,R2` two behind `e`. -/
def twoBehind (on : Bool) (e : Word) : State := pipe on 0x00221820 0 e 0

/-- Forwarding off; on behind a load; on behind an ALU producer. -/
theorem witness_ConsumerTwoBehindProducer :
    ∀ s ∈ [twoBehind false 0x24010005, twoBehind true 0x8C010000, twoBehind true 0x24010005],
      PipelineInv s ∧ s.halted = false ∧ s.stall = 0 ∧ decode s.ifId.ir = .instr (.add 1 2 3 0) ∧
      (∃ r ∈ sourcesOf (.add 1 2 3 0), s.exMem.regWrite = true ∧ s.exMem.registerRd = r) ∧
      (∀ r ∈ sourcesOf (.add 1 2 3 0), ¬(s.idEx.regWrite = true ∧ s.idEx.registerRd = r)) ∧
      (executed s).branchPending = false ∧ decode s.memWb.ir = .instr .nop ∧
      sourceA (.add 1 2 3 0) = some 1 ∧ s.exMem.registerRd = 1 := by decide

theorem witness_ConsumerTwoBehindProducer_steps :
    (∃ t1 t2, step (twoBehind false 0x24010005) = .next t1 ∧ step t1 = .next t2) ∧
    (∃ t1 t2, step (twoBehind true 0x8C010000) = .next t1 ∧ step t1 = .next t2) ∧
    (∃ t1 t2, step (twoBehind true 0x24010005) = .next t1 ∧ step t1 = .next t2) :=
  ⟨⟨_, _, rfl, rfl⟩, ⟨_, _, rfl, rfl⟩, ⟨_, _, rfl, rfl⟩⟩

/-- The operand in `B` (`ADD R3,R2,R1`) and in `StoreData` (`SW R1,0(R2)`), two behind a load of R1. -/
theorem witness_ConsumerTwoBehindProducer_operands :
    ∀ c ∈ [(pipe true 0x00411820 0 0x8C010000 0, Instr.add 2 1 3 0), (pipe true 0xAC410000 0 0x8C010000 0, Instr.sw 2 1 0)],
      PipelineInv c.1 ∧ c.1.halted = false ∧ c.1.stall = 0 ∧ decode c.1.ifId.ir = .instr c.2 ∧
      1 ∈ sourcesOf c.2 ∧ (c.1.exMem.regWrite = true ∧ c.1.exMem.registerRd = 1) ∧
      (∀ r ∈ sourcesOf c.2, ¬(c.1.idEx.regWrite = true ∧ c.1.idEx.registerRd = r)) ∧
      (executed c.1).branchPending = false ∧ decode c.1.memWb.ir = .instr .nop ∧
      (sourceB c.2 = some 1 ∨ sourceStore c.2 = some 1) := by decide

/-- Both clauses: `BEQ R0,R0,2` taken; `BNE R0,R0,2` not taken. -/
theorem witness_TakenTransferFlushesTwoSlots :
    (PipelineInv branching ∧ branching.halted = false ∧ (executed branching).branchPending = true ∧
      (stepped branching).halted = false) ∧
    (let s := pipe false 0x24010001 0x14000002 0 0;
      PipelineInv s ∧ s.halted = false ∧ (executed s).branchPending = false ∧ s.idEx.ir ≠ 0 ∧ s.idEx.regWrite = false ∧
      s.exMem.regWrite = false) := by decide

theorem witness_TakenTransferFlushesTwoSlots_steps :
    step branching = .next (stepped branching) ∧ (∃ u, step (stepped branching) = .next u) ∧
    (∃ t, step (pipe false 0x24010001 0x14000002 0 0) = .next t) := ⟨rfl, ⟨_, rfl⟩, ⟨_, rfl⟩⟩

/-- MFHI and MFLO directly behind a MULT. -/
theorem witness_HiLoNeedsNoInterlock :
    ∀ s ∈ [pipe false 0x00003810 0x00A60018 0 0, pipe false 0x00003812 0x00A60018 0 0],
      PipelineInv s ∧ s.halted = false ∧ s.stall = 0 ∧ (executed s).branchPending = false ∧
      decode s.memWb.ir = .instr .nop ∧
      (decode s.ifId.ir = .instr (.mfhi 0 0 7 0) ∨ decode s.ifId.ir = .instr (.mflo 0 0 7 0)) := by decide

theorem witness_HiLoNeedsNoInterlock_steps :
    (∃ t1 t2, step (pipe false 0x00003810 0x00A60018 0 0) = .next t1 ∧ step t1 = .next t2) ∧
    (∃ t1 t2, step (pipe false 0x00003812 0x00A60018 0 0) = .next t1 ∧ step t1 = .next t2) :=
  ⟨⟨_, _, rfl, rfl⟩, ⟨_, _, rfl, rfl⟩⟩

end Sys2Proof.Tests
end

namespace Sys2Proof.Proofs

open Sys2Proof Sys2Proof.Machine

/-! ### Power-on with an empty image (R28, R240) -/

/-- With no byte to deliver, the loader leaves the zeroed regions as they are. -/
theorem loadImage_of_image_eq_nil {p : Config.Params} (h : p.image = []) : loadImage p = [] := by
  simp only [loadImage, h, List.foldl_nil]

theorem powerOn_of_image_eq_nil {p : Config.Params} (h : p.image = []) :
    powerOn p = State.resetWith p p.forwardingReset [] := by
  rw [powerOn, loadImage_of_image_eq_nil h]

theorem recommendedParams_image : recommendedParams.image = [] := rfl

theorem reset_eq_powerOn_recommendedParams : State.reset = powerOn recommendedParams :=
  (powerOn_of_image_eq_nil recommendedParams_image).symm

theorem resetWith_cur_pc (p : Config.Params) (forwarding : Bool) (mem : Memory) :
    (State.resetWith p forwarding mem).cur.pc = p.text.base := rfl

/-- Settles O2: the recommended image is empty (log 2), so the loader writes nothing at power-on and memory lists nothing;
`TEXT_BASE` is that of the recommended map (log 1). -/
theorem resetStateIsRecommendedPowerOn : Obligations.ResetStateIsRecommendedPowerOn := by
  unfold Obligations.ResetStateIsRecommendedPowerOn
  have hparams : State.reset.params = recommendedParams := rfl
  have hmem : State.reset.mem = [] := rfl
  have hpc : State.reset.cur.pc = recommendedParams.text.base := resetWith_cur_pc _ _ _
  exact ⟨reset_eq_powerOn_recommendedParams, hparams ▸ recommendedParams_image, hmem, hpc⟩

end Sys2Proof.Proofs

namespace Sys2Proof.Proofs

open Sys2Proof Sys2Proof.Machine Sys2Proof.Statement

/-! ### What the decoder can answer (R71, R74, R212) -/

theorem decode_zero : decode 0#32 = .instr .nop := rfl

/-- What every opcode map answers for the word `w`: an instruction other than the NOP, or the word itself, rejected. -/
def MapAnswer (w : Word) (d : Decoded) : Prop := (∃ i, i ≠ .nop ∧ d = .instr i) ∨ d = .unimplemented w

theorem MapAnswer.row {w : Word} {c : Prop} [Decidable c] {i : Instr} {d : Decoded} (hi : i ≠ .nop)
    (hd : MapAnswer w d) : MapAnswer w (if c then .instr i else d) := by
  split
  · exact .inl ⟨i, hi, rfl⟩
  · exact hd

theorem decodeSpecial_answer (w : Word) : MapAnswer w (decodeSpecial w) := by
  unfold decodeSpecial
  repeat refine .row nofun ?_
  exact .inr rfl

theorem decodeRegimm_answer (w : Word) : MapAnswer w (decodeRegimm w) := by
  unfold decodeRegimm
  repeat refine .row nofun ?_
  exact .inr rfl

theorem decodePrimary_answer (w : Word) : MapAnswer w (decodePrimary w) := by
  unfold decodePrimary
  repeat refine .row nofun ?_
  exact .inr rfl

/-- The NOP is the zero word alone; every other word is an instruction, or is rejected as it stands. -/
theorem decode_cases (w : Word) :
    (w = 0 ∧ decode w = .instr .nop) ∨
    (w ≠ 0 ∧ MapAnswer w (decode w)) := by
  unfold decode
  by_cases h0 : w = 0
  · exact .inl ⟨h0, by rw [if_pos h0]⟩
  · refine .inr ⟨h0, ?_⟩
    rw [if_neg h0]
    split_ifs
    · exact decodeSpecial_answer w
    · exact decodeRegimm_answer w
    · exact decodePrimary_answer w

theorem decode_eq_nop_iff {w : Word} : decode w = .instr .nop ↔ w = 0 := by
  rcases decode_cases w with ⟨h0, hd⟩ | ⟨h0, ⟨i, hi, hd⟩ | hd⟩
  · exact iff_of_true hd h0
  · exact iff_of_false (by simp [hd, hi]) h0
  · exact iff_of_false (by simp [hd]) h0

theorem ne_zero_of_decode {w : Word} {i : Instr} (hd : decode w = .instr i) (hi : i ≠ .nop) : w ≠ 0 :=
  fun h0 => hi (Decoded.instr.inj (hd.symm.trans (decode_eq_nop_iff.2 h0)))

theorem ne_zero_of_unimplemented {w v : Word} (hd : decode w = .unimplemented v) : w ≠ 0 :=
  fun h0 => nomatch hd.symm.trans (decode_eq_nop_iff.2 h0)

/-- A rejected word is handed back as it stands. -/
theorem eq_of_unimplemented {w v : Word} (hd : decode w = .unimplemented v) : v = w := by
  rcases decode_cases w with ⟨-, hd'⟩ | ⟨-, ⟨i, -, hd'⟩ | hd'⟩ <;> simp_all

/-! ### What the Writeback unit can answer (R83) -/

/-- Everything Writeback can answer: a register write, the halt, or nothing. -/
inductive WritebackAnswer (s : State) : Result → Prop
  | register (hw : WritesRegister s.memWb) :
    WritebackAnswer s (.next ((s.at .writeback).setNxtReg s.memWb.registerRd (writtenValue s.memWb)))
  | halts (hs : IsSyscall s.memWb.ir) (hcode : readReg s.cur.x 2 = 10) :
    WritebackAnswer s (.next (s.at .writeback).halt)
  | nothing (hw : ¬WritesRegister s.memWb) (hs : ¬(IsSyscall s.memWb.ir ∧ readReg s.cur.x 2 = 10)) :
    WritebackAnswer s (.next (s.at .writeback))

theorem WritebackAnswer.result {s : State} (h0 : s.memWb.ir ≠ 0) (hs : ¬IsSyscall s.memWb.ir)
    (hl : isLoadWord s.memWb.ir = false) : WritebackAnswer s (.next (writebackResult (s.at .writeback))) := by
  rcases writebackResult_cases (s.at .writeback) with ⟨hr, h⟩ | ⟨hr, h⟩ <;> rw [h]
  · have hv : writtenValue s.memWb = s.memWb.aluOutput := by simp [writtenValue, hl]
    exact hv ▸ .register ⟨h0, hs, hr⟩
  · exact .nothing (fun hw => by simp [hw.2.2] at hr) (fun h => hs h.1)

theorem WritebackAnswer.load {s : State} (h0 : s.memWb.ir ≠ 0) (hs : ¬IsSyscall s.memWb.ir)
    (hl : isLoadWord s.memWb.ir = true) : WritebackAnswer s (.next (writebackLoad (s.at .writeback))) := by
  rcases writebackLoad_cases (s.at .writeback) with ⟨hr, h⟩ | ⟨hr, h⟩ <;> rw [h]
  · have hv : writtenValue s.memWb = s.memWb.lmd := by simp [writtenValue, hl]
    exact hv ▸ .register ⟨h0, hs, hr⟩
  · exact .nothing (fun hw => by simp [hw.2.2] at hr) (fun h => hs h.1)

theorem WritebackAnswer.syscall {s : State} (hs : IsSyscall s.memWb.ir) :
    WritebackAnswer s (.next (writebackSyscall (s.at .writeback))) := by
  rcases writebackSyscall_cases (s.at .writeback) with ⟨hcode, h⟩ | ⟨hcode, h⟩ <;> rw [h]
  · exact .halts hs hcode
  · exact .nothing (fun hw => hw.2.1 hs) (fun h => hcode h.2)

theorem writebackUnit_answer (s : State) : WritebackAnswer s (writebackUnit s) := by
  unfold writebackUnit
  cases hd : decode s.memWb.ir with
  | unimplemented v =>
    rw [runUnit_unimplemented s hd]
    exact .result (ne_zero_of_unimplemented hd) (by simp [IsSyscall, hd]) (by simp [isLoadWord, hd])
  | instr i =>
    rw [runUnit_instr s hd]
    cases i with
    | nop => exact .nothing (fun hw => hw.1 (decode_eq_nop_iff.1 hd)) (by simp [IsSyscall, hd])
    | syscall code => exact .syscall ⟨code, hd⟩
    | lb | lh | lw =>
      exact .load (ne_zero_of_decode hd nofun) (by simp [IsSyscall, hd]) (by simp [isLoadWord, isLoad, hd])
    | _ => exact .result (ne_zero_of_decode hd nofun) (by simp [IsSyscall, hd]) (by simp [isLoadWord, isLoad, hd])

/-- Writeback writes one register or the halt flag, and each only under its condition (R30, R83). -/
theorem writebackUnit_writes {s t : State} (h : writebackUnit s = .next t) :
    t = { s with nxt := { s.nxt with x := t.nxt.x }, halted := t.halted, stage := t.stage } ∧
    (WritesRegister s.memWb → t.nxt.x = writeReg s.nxt.x s.memWb.registerRd (writtenValue s.memWb)) ∧
    (¬WritesRegister s.memWb → t.nxt.x = s.nxt.x) ∧
    (t.halted = true ↔ s.halted = true ∨ (IsSyscall s.memWb.ir ∧ readReg s.cur.x 2 = 10)) := by
  have ha : WritebackAnswer s (.next t) := h ▸ writebackUnit_answer s
  cases ha with
  | register hw => exact ⟨rfl, fun _ => rfl, fun hn => absurd hw hn, by simp [hw.2.1]⟩
  | halts hs hcode =>
    exact ⟨rfl, fun hw => absurd hs hw.2.1, fun _ => rfl, fun _ => .inr ⟨hs, hcode⟩, fun _ => rfl⟩
  | nothing hw hs => exact ⟨rfl, fun h => absurd h hw, fun _ => rfl, .inl, fun h => h.resolve_right hs⟩

/-! ### What the Memory unit can answer (R84) -/

/-- Everything Memory can answer: a store, a load, or only the latch copied. -/
inductive MemoryAnswer (s : State) : Result → Prop
  | store (n : Nat) (hn : storeSize s.exMem.ir = n) (hpos : 0 < n) :
    MemoryAnswer s (.next (memoryStore n (s.at .memory)))
  | load (hl : isLoadWord s.exMem.ir = true) (hn : storeSize s.exMem.ir = 0) (v : Word) :
    MemoryAnswer s (.next (memoryLoad v (s.at .memory)))
  | pass (hn : storeSize s.exMem.ir = 0) : MemoryAnswer s (.next (memoryPass (s.at .memory)))

theorem memoryUnit_answer (s : State) : MemoryAnswer s (memoryUnit s) := by
  unfold memoryUnit
  cases hd : decode s.exMem.ir with
  | unimplemented v =>
    rw [runUnit_unimplemented s hd]
    exact .pass (by simp [storeSize, hd])
  | instr i =>
    rw [runUnit_instr s hd]
    cases i with
    | lb | lh | lw => exact .load (by simp [isLoadWord, isLoad, hd]) (by simp [storeSize, hd]) _
    | sb | sh | sw => exact .store _ (by simp only [storeSize, hd]) (by decide)
    | _ => exact .pass (by simp [storeSize, hd])

/-- Memory copies the latch but for `LMD`, and writes memory only for a store (R30, R84). -/
theorem memoryUnit_writes {s t : State} (h : memoryUnit s = .next t) :
    t = { s with memWb := t.memWb, mem := t.mem, stage := t.stage } ∧
    t.memWb = { s.exMem with lmd := t.memWb.lmd } ∧
    (0 < storeSize s.exMem.ir →
      t.mem = memWrite s.params s.mem s.exMem.aluOutput (storeSize s.exMem.ir) s.exMem.storeData) ∧
    (storeSize s.exMem.ir = 0 → t.mem = s.mem) := by
  have ha : MemoryAnswer s (.next t) := h ▸ memoryUnit_answer s
  cases ha with
  | store n hn hpos => exact ⟨rfl, rfl, fun _ => by rw [hn]; rfl, fun h0 => absurd (hn ▸ h0) hpos.ne'⟩
  | load hl hn v => exact ⟨rfl, rfl, fun h0 => absurd hn h0.ne', fun _ => rfl⟩
  | pass hn => exact ⟨rfl, rfl, fun h0 => absurd hn h0.ne', fun _ => rfl⟩

/-! ### What the Execute unit can answer (R85) -/

/-- The transfer that the instruction `i`, held in the latch `l`, makes in Execute, if it makes one (R171 to R180). -/
def transferOf (l : Latch) : Instr → Option Word
  | .beq _ _ _ => if condEq l.a l.b then some (branchTargetOf l) else none
  | .bne _ _ _ => if condNe l.a l.b then some (branchTargetOf l) else none
  | .blez _ _ _ => if condLez l.a then some (branchTargetOf l) else none
  | .bgtz _ _ _ => if condGtz l.a then some (branchTargetOf l) else none
  | .bltz _ _ => if condLtz l.a then some (branchTargetOf l) else none
  | .bgez _ _ => if condGez l.a then some (branchTargetOf l) else none
  | .j _ | .jal _ => some (jumpTargetOf l)
  | .jr _ _ _ _ | .jalr _ _ _ _ => some l.a
  | _ => none

/-- The transfer that the word held in the latch `l` makes in Execute, if it makes one. -/
def latchTransfer (l : Latch) : Option Word :=
  match decode l.ir with
  | .instr i => transferOf l i
  | .unimplemented _ => none

theorem latchTransfer_of_decode {l : Latch} {i : Instr} (hd : decode l.ir = .instr i) :
    latchTransfer l = transferOf l i := by
  simp only [latchTransfer, hd]

/-- Everything Execute can answer: the latch copied, `ALUOutput` filled in, HI or LO written, or a transfer raised. -/
inductive ExecuteAnswer (s : State) : Result → Prop
  | pass (ht : latchTransfer s.idEx = none) : ExecuteAnswer s (.next (executePass (s.at .execute)))
  | result (h0 : s.idEx.ir ≠ 0) (ht : latchTransfer s.idEx = none) (v : Word) :
    ExecuteAnswer s (.next (executeResult v (s.at .execute)))
  | hiLo (ht : latchTransfer s.idEx = none) (hi lo : Word) (hhi : writesHi s.idEx.ir = false → hi = s.nxt.hi)
      (hlo : writesLo s.idEx.ir = false → lo = s.nxt.lo) :
    ExecuteAnswer s (.next (((executePass (s.at .execute)).setNxtHi hi).setNxtLo lo))
  | transfer (h0 : s.idEx.ir ≠ 0) (hw : isTransfer s.idEx.ir = true) (target : Word)
      (ht : latchTransfer s.idEx = some target) (v : Word) :
    ExecuteAnswer s (.next ((executeResult v (s.at .execute)).raiseBranch target))

theorem ExecuteAnswer.branch {s : State} {taken : Bool} (h0 : s.idEx.ir ≠ 0) (hw : isTransfer s.idEx.ir = true)
    (ht : latchTransfer s.idEx = if taken then some (branchTargetOf s.idEx) else none) :
    ExecuteAnswer s (.next (executeBranch taken (s.at .execute))) := by
  cases taken
  · exact .pass ht
  · exact .transfer h0 hw _ ht s.idEx.aluOutput

theorem ExecuteAnswer.multiply_or_divide {s : State} {rs rt : Reg} {f : Word → Word → Option (Word × Word)}
    (ht : latchTransfer s.idEx = none) (hw : writesBoth s.idEx.ir = true) :
    ExecuteAnswer s (hiLoOp rs rt f (s.at .execute)) := by
  simp only [hiLoOp, byStage_execute]
  split
  · exact .hiLo ht _ _ (by simp [writesHi, hw]) (by simp [writesLo, hw])
  · exact .pass ht

theorem executeUnit_answer (s : State) : ExecuteAnswer s (executeUnit s) := by
  unfold executeUnit
  cases hd : decode s.idEx.ir with
  | unimplemented v =>
    rw [runUnit_unimplemented s hd]
    exact .pass (by simp [latchTransfer, hd])
  | instr i =>
    have ht := latchTransfer_of_decode hd
    rw [runUnit_instr s hd]
    cases i with
    | nop | syscall => exact .pass ht
    | mult | multu | div | divu =>
      dsimp only [exec, execMult, execMultu, execDiv, execDivu]
      exact .multiply_or_divide ht (by simp [writesBoth, hd])
    | mthi => exact .hiLo ht s.idEx.a s.nxt.lo (by simp [writesHi, hd]) (fun _ => rfl)
    | mtlo => exact .hiLo ht s.nxt.hi s.idEx.a (fun _ => rfl) (by simp [writesLo, hd])
    | beq | bne | blez | bgtz | bltz | bgez =>
      exact .branch (ne_zero_of_decode hd nofun) (by simp [isTransfer, hd]) ht
    | j | jr => exact .transfer (ne_zero_of_decode hd nofun) (by simp [isTransfer, hd]) _ ht s.idEx.aluOutput
    | jal | jalr => exact .transfer (ne_zero_of_decode hd nofun) (by simp [isTransfer, hd]) _ ht _
    | _ => exact .result (ne_zero_of_decode hd nofun) ht _

/-- Execute copies the latch but for `ALUOutput`; HI, LO and the pending transfer only where R30 says so. -/
theorem executeUnit_writes {s t : State} (h : executeUnit s = .next t) :
    t = { s with exMem := t.exMem, nxt := { s.nxt with hi := t.nxt.hi, lo := t.nxt.lo },
                 branchPending := t.branchPending, branchTarget := t.branchTarget, stage := t.stage } ∧
    t.exMem = { s.idEx with aluOutput := t.exMem.aluOutput } ∧
    (writesHi s.idEx.ir = false → t.nxt.hi = s.nxt.hi) ∧ (writesLo s.idEx.ir = false → t.nxt.lo = s.nxt.lo) ∧
    ((t.branchPending = s.branchPending ∧ t.branchTarget = s.branchTarget) ∨
      (isTransfer s.idEx.ir = true ∧ t.branchPending = true)) := by
  have ha : ExecuteAnswer s (.next t) := h ▸ executeUnit_answer s
  cases ha with
  | pass ht => exact ⟨rfl, rfl, fun _ => rfl, fun _ => rfl, .inl ⟨rfl, rfl⟩⟩
  | result h0 ht v => exact ⟨rfl, rfl, fun _ => rfl, fun _ => rfl, .inl ⟨rfl, rfl⟩⟩
  | hiLo ht hi lo hhi hlo => exact ⟨rfl, rfl, hhi, hlo, .inl ⟨rfl, rfl⟩⟩
  | transfer h0 hw target ht v => exact ⟨rfl, rfl, fun _ => rfl, fun _ => rfl, .inr ⟨hw, rfl⟩⟩

/-- The pending transfer after Execute is a function of `ID_EX` and of what was pending before. -/
theorem executeUnit_branchPending {s t : State} (h : executeUnit s = .next t) :
    t.branchPending = (s.branchPending || (latchTransfer s.idEx).isSome) := by
  have ha : ExecuteAnswer s (.next t) := h ▸ executeUnit_answer s
  cases ha with
  | pass ht => simp [executePass, ht]
  | result h0 ht v => simp [executeResult, ht]
  | hiLo ht hi lo hhi hlo => simp [executePass, ht]
  | transfer h0 hw target ht v => simp [ht]

theorem executeUnit_executed (s : State) : executeUnit s = .next (executed s) := by
  have ha := executeUnit_answer s
  unfold executed
  cases h : executeUnit s with
  | next t => rfl
  | _ => rw [h] at ha; nomatch ha

/-! ### What the Decode unit can answer (R88 to R97) -/

/-- Everything Decode can answer: a bubble, a stall with a bubble, an instruction issued, or an unimplemented word
issued. -/
inductive DecodeAnswer (s : State) : Result → Prop
  | bubble (hwhy : s.branchPending = true ∨ 0 < s.stall ∨ s.ifId.ir = 0) :
    DecodeAnswer s (.next ((s.at .decode).setIdEx Latch.clear))
  | stalls (hs : s.stall = 0) (i : Instr) (hi : i ≠ .nop) (hd : decode s.ifId.ir = .instr i)
      (n : Nat) (hn : n = 1 ∨ n = 2) :
    DecodeAnswer s (.next (((s.at .decode).setStall n).setIdEx Latch.clear))
  | issues (hs : s.stall = 0) (i : Instr) (hi : i ≠ .nop) (hd : decode s.ifId.ir = .instr i)
      (q : Issue) (hq : q.dest = destOf i) :
    DecodeAnswer s (.next ((s.at .decode).setIdEx (issuedLatch q (s.at .decode))))
  | unimplemented (hb : s.branchPending = false) (hs : s.stall = 0) (hd : decode s.ifId.ir = .unimplemented s.ifId.ir) :
    DecodeAnswer s (.next (issueUnimplemented (s.at .decode)))

/-- Decode of every instruction but the NOP is an issue with the destination of R75. -/
theorem exec_decode_eq_issue {i : Instr} (hi : i ≠ .nop) (s : State) :
    ∃ q, q.dest = destOf i ∧ exec i (s.at .decode) = .next (issue q (s.at .decode)) := by
  cases i with
  | nop => exact absurd rfl hi
  | _ => exact ⟨_, rfl, rfl⟩

theorem DecodeAnswer.issue {s : State} (hs : s.stall = 0) {i : Instr} (hi : i ≠ .nop)
    (hd : decode s.ifId.ir = .instr i) : DecodeAnswer s (exec i (s.at .decode)) := by
  obtain ⟨q, hq, h⟩ := exec_decode_eq_issue hi s
  rw [h]
  rcases issue_cases (s.at .decode) q with ⟨-, h⟩ | ⟨hpos, hle, h⟩ <;> rw [h]
  · exact .issues hs i hi hd q hq
  · exact .stalls hs i hi hd _ (by omega)

theorem decodeUnit_answer (s : State) : DecodeAnswer s (decodeUnit s) := by
  rcases decodeUnit_cases s with ⟨hwhy, h⟩ | ⟨hb, hs, h⟩ <;> rw [h]
  · exact .bubble (hwhy.imp_right .inl)
  · rcases decode_cases s.ifId.ir with ⟨h0, hd⟩ | ⟨-, ⟨i, hi, hd⟩ | hd⟩
    · rw [runUnit_instr s hd]
      exact .bubble (.inr (.inr h0))
    · rw [runUnit_instr s hd]
      exact .issue hs hi hd
    · rw [runUnit_unimplemented s hd]
      exact .unimplemented hb hs hd

/-- Decode writes `ID_EX`, the stall counter and `unimplemented_seen`, the last two only where R30 says so. -/
theorem decodeUnit_writes {s t : State} (h : decodeUnit s = .next t) :
    t = { s with idEx := t.idEx, stall := t.stall, unimplementedSeen := t.unimplementedSeen, stage := t.stage } ∧
    (t.stall = s.stall ∨ (s.stall = 0 ∧ (t.stall = 1 ∨ t.stall = 2) ∧ t.idEx = Latch.clear)) ∧
    (t.unimplementedSeen = s.unimplementedSeen ∨
      (t.unimplementedSeen = true ∧ decode s.ifId.ir = .unimplemented s.ifId.ir)) := by
  have ha : DecodeAnswer s (.next t) := h ▸ decodeUnit_answer s
  cases ha with
  | bubble hwhy => exact ⟨rfl, .inl rfl, .inl rfl⟩
  | stalls hs i hi hd n hn => exact ⟨rfl, .inr ⟨hs, hn, rfl⟩, .inl rfl⟩
  | issues hs i hi hd q hq => exact ⟨rfl, .inl rfl, .inl rfl⟩
  | unimplemented hb hs hd => exact ⟨rfl, .inl rfl, .inr ⟨rfl, hd⟩⟩

/-- `unimplemented_seen` after Decode (R25). -/
theorem decodeUnit_unimplementedSeen {s t : State} (h : decodeUnit s = .next t) :
    t.unimplementedSeen = true ↔ s.unimplementedSeen = true ∨
      ((∃ w, decode s.ifId.ir = .unimplemented w) ∧ s.stall = 0 ∧ s.branchPending = false) := by
  have ha : DecodeAnswer s (.next t) := h ▸ decodeUnit_answer s
  cases ha with
  | bubble hwhy =>
    have hno : ¬((∃ w, decode s.ifId.ir = .unimplemented w) ∧ s.stall = 0 ∧ s.branchPending = false) := by
      rintro ⟨⟨w, hd⟩, hs, hb⟩
      rcases hwhy with hb' | hs' | h0
      · simp [hb] at hb'
      · omega
      · exact ne_zero_of_unimplemented hd h0
    simp [hno]
  | stalls hs i hi hd n hn => simp [hd]
  | issues hs i hi hd q hq => simp [hd]
  | unimplemented hb hs hd => simp [issueUnimplemented, hb, hs, hd]

/-! ### What Fetch leaves unchanged (R98 to R100) -/

theorem fetchUnit_writes (s : State) :
    fetchUnit s = { s with ifId := (fetchUnit s).ifId, nxt := { s.nxt with pc := (fetchUnit s).nxt.pc },
                           branchPending := false, stall := (fetchUnit s).stall } ∧
    (fetchUnit s).stall = if s.branchPending = true then 0 else s.stall - 1 := by
  rcases fetchUnit_cases s with ⟨hb, h⟩ | ⟨hb, hs, h⟩ | ⟨hb, hs, h⟩ <;> rw [h]
  · exact ⟨rfl, by simp [hb]⟩
  · exact ⟨by rw [← hb]; rfl, by simp [hb]⟩
  · exact ⟨by rw [← hb]; rfl, by simp [hb, hs]⟩

section FetchFrame
variable (s : State)

@[simp] theorem fetchUnit_branchPending : (fetchUnit s).branchPending = false :=
  (congrArg State.branchPending (fetchUnit_writes s).1 :)
@[simp] theorem fetchUnit_idEx : (fetchUnit s).idEx = s.idEx := (congrArg State.idEx (fetchUnit_writes s).1 :)
@[simp] theorem fetchUnit_exMem : (fetchUnit s).exMem = s.exMem := (congrArg State.exMem (fetchUnit_writes s).1 :)
@[simp] theorem fetchUnit_memWb : (fetchUnit s).memWb = s.memWb := (congrArg State.memWb (fetchUnit_writes s).1 :)
@[simp] theorem fetchUnit_halted : (fetchUnit s).halted = s.halted := (congrArg State.halted (fetchUnit_writes s).1 :)
@[simp] theorem fetchUnit_unimplementedSeen : (fetchUnit s).unimplementedSeen = s.unimplementedSeen :=
  (congrArg State.unimplementedSeen (fetchUnit_writes s).1 :)
@[simp] theorem fetchUnit_mem : (fetchUnit s).mem = s.mem := (congrArg State.mem (fetchUnit_writes s).1 :)
@[simp] theorem fetchUnit_params : (fetchUnit s).params = s.params := (congrArg State.params (fetchUnit_writes s).1 :)

end FetchFrame

/-- Settles O12: the table of writers is the conjunction of what each unit's answers write, and the commit. -/
theorem stageUnitsWriteOnlyTheirOwnState : Obligations.StageUnitsWriteOnlyTheirOwnState := by
  unfold Obligations.StageUnitsWriteOnlyTheirOwnState
  exact ⟨fun _ _ => writebackUnit_writes, fun _ _ => memoryUnit_writes, fun _ _ => executeUnit_writes,
    fun _ _ => decodeUnit_writes, fetchUnit_writes, fun _ => rfl⟩


/-! ### Well-formed latches (R27 items 4 and 6) -/

theorem latchOk_iff {l : Latch} :
    latchOk l = true ↔ (l.ir = 0 → l = Latch.clear) ∧ (l.regWrite = true → destMatches l = true) := by
  simp [latchOk, imp_iff_or_not, or_comm]

theorem latchOk_clear : latchOk Latch.clear = true := by decide

theorem latchOk_of_ir_ne_zero {l : Latch} (h0 : l.ir ≠ 0) (hd : l.regWrite = true → destMatches l = true) :
    latchOk l = true :=
  latchOk_iff.2 ⟨fun h => absurd h h0, hd⟩

/-- The latch Decode issues for an instruction names the destination of R75. -/
theorem latchOk_issuedLatch {s : State} {i : Instr} {q : Issue} (hi : i ≠ .nop) (hd : decode s.ifId.ir = .instr i)
    (hq : q.dest = destOf i) : latchOk (issuedLatch q s) = true := by
  refine latchOk_of_ir_ne_zero (ne_zero_of_decode hd hi) fun hw => ?_
  obtain ⟨r, hr⟩ := Option.isSome_iff_exists.1 hw
  simp [destMatches, hd, ← hq, hr]

/-- Execute hands a well-formed latch on as a well-formed latch. -/
theorem executeUnit_latchOk {s t : State} (h : executeUnit s = .next t) (hl : latchOk s.idEx = true) :
    latchOk t.exMem = true := by
  have ha : ExecuteAnswer s (.next t) := h ▸ executeUnit_answer s
  cases ha with
  | pass ht => exact hl
  | result h0 ht v => exact latchOk_of_ir_ne_zero h0 (latchOk_iff.1 hl).2
  | hiLo ht hi lo hhi hlo => exact hl
  | transfer h0 hw target ht v => exact latchOk_of_ir_ne_zero h0 (latchOk_iff.1 hl).2

/-- Memory hands a well-formed latch on as a well-formed latch. -/
theorem memoryUnit_latchOk {s t : State} (h : memoryUnit s = .next t) (hl : latchOk s.exMem = true) :
    latchOk t.memWb = true := by
  have ha : MemoryAnswer s (.next t) := h ▸ memoryUnit_answer s
  cases ha with
  | store n hn hpos => exact hl
  | load hload hn v =>
    have h0 : s.exMem.ir ≠ 0 := fun h0 => by simp [h0, isLoadWord, decode_zero, isLoad] at hload
    exact latchOk_of_ir_ne_zero h0 (latchOk_iff.1 hl).2
  | pass hn => exact hl

/-! ### Memory through the units (R26, R46) -/

theorem memoryInv_congr {s t : State} (hp : t.params = s.params) (hm : t.mem = s.mem) (h : MemoryInv s) :
    MemoryInv t := by
  rw [MemoryInv, hp, hm]
  exact h

theorem memoryUnit_memoryInv {s t : State} (h : memoryUnit s = .next t) (hm : MemoryInv s) : MemoryInv t := by
  have ha : MemoryAnswer s (.next t) := h ▸ memoryUnit_answer s
  cases ha with
  | store n hn hpos => exact memWrite_memoryOk _ _ _ hm
  | load hl hn v => exact hm
  | pass hn => exact hm

/-! ### What Writeback, Memory and Execute leave to Decode -/

/-- What none of Writeback, Memory and Execute writes (R30). -/
structure BackUnitKeeps (s t : State) : Prop where
  cur : t.cur = s.cur
  nxtPc : t.nxt.pc = s.nxt.pc
  ifId : t.ifId = s.ifId
  idEx : t.idEx = s.idEx
  stall : t.stall = s.stall
  forwarding : t.forwarding = s.forwarding
  cycleCount : t.cycleCount = s.cycleCount
  unimplementedSeen : t.unimplementedSeen = s.unimplementedSeen
  params : t.params = s.params

theorem BackUnitKeeps.trans {s t u : State} (h : BackUnitKeeps s t) (h' : BackUnitKeeps t u) : BackUnitKeeps s u where
  cur := h'.cur.trans h.cur
  nxtPc := h'.nxtPc.trans h.nxtPc
  ifId := h'.ifId.trans h.ifId
  idEx := h'.idEx.trans h.idEx
  stall := h'.stall.trans h.stall
  forwarding := h'.forwarding.trans h.forwarding
  cycleCount := h'.cycleCount.trans h.cycleCount
  unimplementedSeen := h'.unimplementedSeen.trans h.unimplementedSeen
  params := h'.params.trans h.params

theorem writebackUnit_keeps {s t : State} (h : writebackUnit s = .next t) : BackUnitKeeps s t := by
  have ha : WritebackAnswer s (.next t) := h ▸ writebackUnit_answer s
  cases ha <;> constructor <;> rfl

theorem memoryUnit_keeps {s t : State} (h : memoryUnit s = .next t) : BackUnitKeeps s t := by
  have ha : MemoryAnswer s (.next t) := h ▸ memoryUnit_answer s
  cases ha <;> constructor <;> rfl

theorem executeUnit_keeps {s t : State} (h : executeUnit s = .next t) : BackUnitKeeps s t := by
  have ha : ExecuteAnswer s (.next t) := h ▸ executeUnit_answer s
  cases ha <;> constructor <;> rfl

/-- What Writeback, Memory and Execute of one cycle make of `s`, as far as Decode and the invariants ask. -/
structure ReachesDecode (s s3 : State) : Prop extends BackUnitKeeps s s3 where
  halted : s3.halted = true ↔ s.halted = true ∨ (IsSyscall s.memWb.ir ∧ readReg s.cur.x 2 = 10)
  branchPending : s3.branchPending = (s.branchPending || (latchTransfer s.idEx).isSome)
  memory : MemoryInv s → MemoryInv s3
  exMemLmd : s3.exMem.lmd = s.idEx.lmd
  exMemOk : latchOk s.idEx = true → latchOk s3.exMem = true
  memWbOk : latchOk s.exMem = true → latchOk s3.memWb = true

theorem reachesDecode_of_units {s s1 s2 s3 : State} (h1 : writebackUnit s = .next s1)
    (h2 : memoryUnit s1 = .next s2) (h3 : executeUnit s2 = .next s3) : ReachesDecode s s3 := by
  obtain ⟨f1, -, -, hhalted⟩ := writebackUnit_writes h1
  obtain ⟨f2, -, -, -⟩ := memoryUnit_writes h2
  obtain ⟨f3, hlatch, -, -, -⟩ := executeUnit_writes h3
  have k1 := writebackUnit_keeps h1
  have k3 := executeUnit_keeps h3
  have k12 := k1.trans (memoryUnit_keeps h2)
  have hexMem : s1.exMem = s.exMem := (congrArg State.exMem f1 :)
  have hmemWb : s3.memWb = s2.memWb := (congrArg State.memWb f3 :)
  have hpending : s2.branchPending = s.branchPending :=
    (congrArg State.branchPending f2 :).trans (congrArg State.branchPending f1 :)
  have hhalt : s3.halted = s1.halted := (congrArg State.halted f3 :).trans (congrArg State.halted f2 :)
  have hlmd : s3.exMem.lmd = s2.idEx.lmd := (congrArg Latch.lmd hlatch :)
  exact {
    toBackUnitKeeps := k12.trans k3
    halted := hhalt ▸ hhalted
    branchPending := by rw [executeUnit_branchPending h3, hpending, k12.idEx]
    memory := fun hm => memoryInv_congr k3.params (congrArg State.mem f3 :)
      (memoryUnit_memoryInv h2 (memoryInv_congr k1.params (congrArg State.mem f1 :) hm))
    exMemLmd := by rw [hlmd, k12.idEx]
    exMemOk := fun hl => executeUnit_latchOk h3 (k12.idEx ▸ hl)
    memWbOk := fun hl => hmemWb ▸ memoryUnit_latchOk h2 (hexMem ▸ hl) }

/-- A step of a core that is not halted: the three older units, then Decode, then Fetch and the commit. -/
theorem step_reachesDecode {s t : State} (hrun : s.halted = false) (h : step s = .next t) :
    ∃ s3 s4, ReachesDecode s s3 ∧ decodeUnit s3 = .next s4 ∧ t = (fetchUnit s4).commit := by
  rcases step_eq_next.1 h with ⟨hh, -⟩ | ⟨-, s1, s2, s3, s4, h1, h2, h3, h4, rfl⟩
  · simp [hrun] at hh
  · exact ⟨s3, s4, reachesDecode_of_units h1 h2 h3, h4, rfl⟩

theorem step_of_halted {s : State} (h : s.halted = true) : step s = .next s :=
  step_eq_next.2 (.inl ⟨h, rfl⟩)

/-- What every executed cycle keeps, every step keeps: a halted step changes nothing (R82). -/
theorem step_keeps_of_cycle_keeps {P : State → Prop}
    (hcycle : ∀ s t, s.halted = false → P s → step s = .next t → P t) {s t : State} (hs : P s)
    (h : step s = .next t) : P t := by
  cases hrun : s.halted with
  | true =>
    have hst : s = t := by simpa [step_of_halted hrun] using h
    exact hst ▸ hs
  | false => exact hcycle s t hrun hs h

/-! ### The invariants inside a cycle (R23, R27) -/

/-- What the pipeline invariant says of the state in which Decode runs. -/
structure DecodeReady (s : State) : Prop where
  stall_le : s.stall ≤ 2
  exMemOk : latchOk s.exMem = true
  memWbOk : latchOk s.memWb = true
  exMemLmd : s.exMem.lmd = 0
  /-- A stall holds an instruction, not a bubble, in `IF_ID`. -/
  held : 0 < s.stall → s.ifId.ir ≠ 0
  fetched : fetchedOnly s.ifId = true
  /-- Fetch is one word ahead of `IF_ID`. -/
  ahead : s.ifId = Latch.clear ∨ s.nxt.pc = s.ifId.pc + 4

/-- What the pipeline invariant says of the state in which Fetch runs. -/
structure FetchReady (s : State) : Prop extends DecodeReady s where
  idExOk : latchOk s.idEx = true
  idExAluOutput : s.idEx.aluOutput = 0
  idExLmd : s.idEx.lmd = 0
  /-- While an instruction is held, Decode sends bubbles on. -/
  bubble : 0 < s.stall → s.idEx = Latch.clear

theorem decodeReady_of_pipelineInv {s s3 : State} (hi : PipelineInv s) (h : ReachesDecode s s3) : DecodeReady s3 := by
  obtain ⟨hnxt, -, hstall, hidEx, hexMem, -, -, hlmd, -, hheld, hfetched, hahead, -⟩ := hi
  exact {
    stall_le := h.stall ▸ hstall
    exMemOk := h.exMemOk hidEx
    memWbOk := h.memWbOk hexMem
    exMemLmd := h.exMemLmd.trans hlmd
    held := fun hs => h.ifId ▸ (hheld (h.stall ▸ hs)).2
    fetched := h.ifId ▸ hfetched
    ahead := by rw [h.ifId, h.nxtPc, hnxt]; exact hahead }

theorem fetchReady_of_decodeReady {s t : State} (hr : DecodeReady s) (h : decodeUnit s = .next t) : FetchReady t := by
  have ha : DecodeAnswer s (.next t) := h ▸ decodeUnit_answer s
  cases ha with
  | bubble hwhy =>
    exact { hr with idExOk := latchOk_clear, idExAluOutput := rfl, idExLmd := rfl, bubble := fun _ => rfl }
  | stalls hs i hi hd n hn =>
    exact { hr with
      stall_le := by simp; omega
      held := fun _ => ne_zero_of_decode hd hi
      idExOk := latchOk_clear, idExAluOutput := rfl, idExLmd := rfl, bubble := fun _ => rfl }
  | issues hs i hi hd q hq =>
    exact { hr with
      idExOk := latchOk_issuedLatch hi hd hq, idExAluOutput := rfl, idExLmd := rfl
      bubble := fun hpos => absurd hs hpos.ne' }
  | unimplemented hb hs hd =>
    exact { hr with
      idExOk := latchOk_of_ir_ne_zero (ne_zero_of_unimplemented hd) nofun, idExAluOutput := rfl, idExLmd := rfl
      bubble := fun hpos => absurd hs hpos.ne' }

theorem fetchedOnly_fetch (w a : Word) : fetchedOnly { Latch.clear with ir := w, pc := a } = true := by
  simp [fetchedOnly]

theorem pipelineInv_of_fetchReady {s : State} (hr : FetchReady s) : PipelineInv (fetchUnit s).commit := by
  rcases fetchUnit_cases s with ⟨-, h⟩ | ⟨hb, hs, h⟩ | ⟨hb, hs, h⟩ <;> rw [h]
  · exact ⟨rfl, rfl, Nat.zero_le 2, hr.idExOk, hr.exMemOk, hr.memWbOk, hr.idExAluOutput, hr.idExLmd, hr.exMemLmd,
      nofun, fetchedOnly_fetch 0 0, .inl rfl, rfl⟩
  · exact ⟨rfl, hb, (Nat.sub_le _ _).trans hr.stall_le, hr.idExOk, hr.exMemOk, hr.memWbOk, hr.idExAluOutput,
      hr.idExLmd, hr.exMemLmd, fun _ => ⟨hr.bubble hs, hr.held hs⟩, hr.fetched, hr.ahead, rfl⟩
  · exact ⟨rfl, hb, hr.stall_le, hr.idExOk, hr.exMemOk, hr.memWbOk, hr.idExAluOutput, hr.idExLmd, hr.exMemLmd,
      fun hpos => absurd hs hpos.ne', fetchedOnly_fetch _ _, .inr rfl, rfl⟩

/-- Settles O21: the invariant, restated for the state in which Decode runs and for the state in which Fetch runs, is
carried through the cycle; a halted step changes nothing. -/
theorem everyStepKeepsPipelineInvariant : Obligations.EveryStepKeepsPipelineInvariant := by
  unfold Obligations.EveryStepKeepsPipelineInvariant
  intro s t
  refine step_keeps_of_cycle_keeps fun s t hrun hi hstep => ?_
  obtain ⟨s3, s4, h3, h4, rfl⟩ := step_reachesDecode hrun hstep
  exact pipelineInv_of_fetchReady (fetchReady_of_decodeReady (decodeReady_of_pipelineInv hi h3) h4)


/-! ### The memory invariant (R26, R41, R46) -/

/-- Settles O20: the one write to memory in a cycle is that of the Memory unit, byte by byte inside the regions. -/
theorem everyStepKeepsMemoryCanonical : Obligations.EveryStepKeepsMemoryCanonical := by
  unfold Obligations.EveryStepKeepsMemoryCanonical
  intro s t
  refine step_keeps_of_cycle_keeps fun s t hrun hm hstep => ?_
  obtain ⟨s3, s4, h3, h4, rfl⟩ := step_reachesDecode hrun hstep
  have hframe := (decodeUnit_writes h4).1
  have hm4 : MemoryInv s4 :=
    memoryInv_congr (congrArg State.params hframe :) (congrArg State.mem hframe :) (h3.memory hm)
  exact memoryInv_congr (fetchUnit_params s4) (fetchUnit_mem s4) hm4

/-! ### The sticky flags (R17, R25) -/

/-- The transfer Execute raises in this cycle is that of `ID_EX`, whatever Writeback and Memory did before it. -/
theorem ReachesDecode.branchPending_eq_executed {s s3 : State} (h : ReachesDecode s s3) :
    s3.branchPending = (executed s).branchPending :=
  h.branchPending.trans (executeUnit_branchPending (executeUnit_executed s)).symm

/-- Settles O47: Decode alone sets the flag, from the word in `IF_ID`, the stall counter the cycle began with and the
transfer Execute has raised. -/
theorem unimplementedSeenIsSticky : Obligations.UnimplementedSeenIsSticky := by
  unfold Obligations.UnimplementedSeenIsSticky
  intro s t hrun hstep
  obtain ⟨s3, s4, h3, h4, rfl⟩ := step_reachesDecode hrun hstep
  have hseen := decodeUnit_unimplementedSeen h4
  rw [h3.unimplementedSeen, h3.ifId, h3.stall, h3.branchPending_eq_executed] at hseen
  exact ⟨by rw [State.commit_unimplementedSeen, fetchUnit_unimplementedSeen]; exact hseen, rfl⟩

/-- Settles O48: Writeback alone sets the flag, and Decode, Fetch and the commit keep it. -/
theorem haltExactlyBySyscall : Obligations.HaltExactlyBySyscall := by
  unfold Obligations.HaltExactlyBySyscall
  refine ⟨fun s t hrun hstep => ?_, fun _ => step_of_halted, fun _ => rfl⟩
  obtain ⟨s3, s4, h3, h4, rfl⟩ := step_reachesDecode hrun hstep
  have hkept : s4.halted = s3.halted := (congrArg State.halted (decodeUnit_writes h4).1 :)
  rw [State.commit_halted, fetchUnit_halted, hkept, h3.halted, hrun]
  simp only [Bool.false_eq_true, false_or]

/-! ### Power-on and `reset()` (R28, R240, R251) -/

section Reset
variable (p : Config.Params) (forwarding : Bool) (mem : Memory)

theorem resetWith_pipelineInv : PipelineInv (State.resetWith p forwarding mem) :=
  ⟨rfl, rfl, Nat.zero_le 2, latchOk_clear, latchOk_clear, latchOk_clear, rfl, rfl, rfl, nofun, fetchedOnly_fetch 0 0,
    .inl rfl, rfl⟩

theorem resetWith_memoryInv : MemoryInv (State.resetWith p forwarding (loadImage p)) := loadImage_memoryOk p

/-- The first cycle after a reset only fetches, the four latches holding bubbles (R211). -/
theorem step_resetWith :
    step (State.resetWith p forwarding mem) =
      .next (fetchUnit ((State.resetWith p forwarding mem).at .decode)).commit := rfl

theorem fetchUnit_resetWith_ifId :
    (fetchUnit ((State.resetWith p forwarding mem).at .decode)).ifId =
      { Latch.clear with ir := memRead32 p mem p.text.base, pc := p.text.base } := rfl

end Reset

/-- Settles O5: power-on and `reset()` are both the reset values with the loader's memory. -/
theorem everyPowerOnSatisfiesInvariants : Obligations.EveryPowerOnSatisfiesInvariants := by
  unfold Obligations.EveryPowerOnSatisfiesInvariants
  exact ⟨fun p => ⟨resetWith_pipelineInv p _ _, resetWith_memoryInv p _⟩,
    fun s => ⟨resetWith_pipelineInv s.params _ _, resetWith_memoryInv s.params _⟩⟩

/-- Settles O4: the model's reset state is a power-on state. -/
theorem resetStateSatisfiesInvariants : Obligations.ResetStateSatisfiesInvariants := by
  unfold Obligations.ResetStateSatisfiesInvariants
  rw [reset_eq_powerOn_recommendedParams]
  exact everyPowerOnSatisfiesInvariants.1 recommendedParams

/-- Settles O1: the values are those of `State.resetWith`, and the first cycle fetches at `TEXT_BASE`. -/
theorem resetGivesTheListedValues : Obligations.ResetGivesTheListedValues := by
  unfold Obligations.ResetGivesTheListedValues
  refine ⟨fun p => ?_, fun s => rfl⟩
  have hregs : ∀ r, readReg (Arch.reset p).x r = 0 := readReg_replicate 0
  have hfetch := fetchUnit_resetWith_ifId p p.forwardingReset (loadImage p)
  exact ⟨rfl, rfl, fun r => ⟨hregs r, hregs r⟩, rfl, rfl, rfl, rfl, rfl, rfl, rfl, rfl, rfl, rfl, rfl, rfl, rfl, rfl,
    rfl, rfl, _, step_resetWith p _ _, congrArg Latch.ir hfetch, congrArg Latch.pc hfetch⟩

/-! ### The forwarding toggle (R20, R252) -/

section Forwarding
variable (on : Bool) (s : State)

@[simp] theorem setForwarding_stage : (setForwarding on s).stage = s.stage := rfl
@[simp] theorem setForwarding_idEx : (setForwarding on s).idEx = s.idEx := rfl

theorem writebackResult_setForwarding :
    writebackResult (setForwarding on s) = setForwarding on (writebackResult s) := by
  unfold writebackResult
  rw [apply_ite (setForwarding on)]
  rfl

theorem writebackLoad_setForwarding :
    writebackLoad (setForwarding on s) = setForwarding on (writebackLoad s) := by
  unfold writebackLoad
  rw [apply_ite (setForwarding on)]
  rfl

theorem writebackSyscall_setForwarding :
    writebackSyscall (setForwarding on s) = setForwarding on (writebackSyscall s) := by
  unfold writebackSyscall
  rw [apply_ite (setForwarding on)]
  rfl

theorem executeBranch_setForwarding (taken : Bool) :
    executeBranch taken (setForwarding on s) = setForwarding on (executeBranch taken s) := by
  cases taken <;> rfl

variable {on s} {t : State}

/-- Behind Decode, an instruction whose contributions ignore the mode answers the same in either mode. -/
theorem byStage_setForwarding {d d' e e' m m' w w' : State → State} (hs : s.stage ≠ .decode)
    (h : byStage d e m w s = .next t) (he : e' (setForwarding on s) = setForwarding on (e s))
    (hm : m' (setForwarding on s) = setForwarding on (m s)) (hw : w' (setForwarding on s) = setForwarding on (w s)) :
    byStage d' e' m' w' (setForwarding on s) = .next (setForwarding on t) := by
  rcases byStage_cases d e m w s with ⟨hg, hr⟩ | ⟨hg, hr⟩ | ⟨hg, hr⟩ | ⟨hg, hr⟩
  · exact absurd hg hs
  all_goals
    obtain rfl := Host.Outcome.next.inj (hr.symm.trans h)
    simp only [byStage, setForwarding_stage, hg, he, hm, hw]

theorem hiLoOp_setForwarding {rs rt : Reg} {f : Word → Word → Option (Word × Word)} (hs : s.stage ≠ .decode)
    (h : hiLoOp rs rt f s = .next t) : hiLoOp rs rt f (setForwarding on s) = .next (setForwarding on t) := by
  unfold hiLoOp at h ⊢
  refine byStage_setForwarding hs h ?_ rfl (writebackResult_setForwarding on s)
  simp only [setForwarding_idEx]
  split <;> rfl

/-- Only Decode looks at the mode: the other three units answer the same in either mode. -/
theorem exec_setForwarding {i : Instr} (hs : s.stage ≠ .decode) (h : exec i s = .next t) :
    exec i (setForwarding on s) = .next (setForwarding on t) := by
  cases i with
  | nop =>
    dsimp only [exec, execNop] at h ⊢
    exact byStage_setForwarding hs h rfl rfl rfl
  | syscall => exact byStage_setForwarding hs h rfl rfl (writebackSyscall_setForwarding on s)
  | lb | lh | lw => exact byStage_setForwarding hs h rfl rfl (writebackLoad_setForwarding on s)
  | beq | bne | blez | bgtz | bltz | bgez =>
    exact byStage_setForwarding hs h (executeBranch_setForwarding on s _) rfl (writebackResult_setForwarding on s)
  | mult | multu | div | divu =>
    dsimp only [exec, execMult, execMultu, execDiv, execDivu] at h ⊢
    exact hiLoOp_setForwarding hs h
  | mthi | mtlo =>
    dsimp only [exec, execMthi, execMtlo] at h ⊢
    exact byStage_setForwarding hs h rfl rfl (writebackResult_setForwarding on s)
  | _ => exact byStage_setForwarding hs h rfl rfl (writebackResult_setForwarding on s)

theorem runUnit_setForwarding {g : Stage} (hg : g ≠ .decode) {w : Word} (h : runUnit g w s = .next t) :
    runUnit g w (setForwarding on s) = .next (setForwarding on t) := by
  cases hd : decode w with
  | instr i =>
    rw [runUnit_instr _ hd] at h ⊢
    exact exec_setForwarding (s := s.at g) hg h
  | unimplemented v =>
    rw [runUnit_unimplemented _ hd] at h ⊢
    exact byStage_setForwarding (s := s.at g) hg h rfl rfl (writebackResult_setForwarding on _)

theorem writebackUnit_setForwarding (h : writebackUnit s = .next t) :
    writebackUnit (setForwarding on s) = .next (setForwarding on t) :=
  runUnit_setForwarding (g := .writeback) nofun h

theorem memoryUnit_setForwarding (h : memoryUnit s = .next t) :
    memoryUnit (setForwarding on s) = .next (setForwarding on t) :=
  runUnit_setForwarding (g := .memory) nofun h

theorem executeUnit_setForwarding (h : executeUnit s = .next t) :
    executeUnit (setForwarding on s) = .next (setForwarding on t) :=
  runUnit_setForwarding (g := .execute) nofun h

theorem drain_setForwarding (h : drain s = .next t) : drain (setForwarding on s) = .next (setForwarding on t) := by
  simp only [drain, Result.andThen_eq_next] at h ⊢
  obtain ⟨s1, h1, s2, h2, s3, h3, s4, h4, s5, h5, h6⟩ := h
  exact ⟨_, writebackUnit_setForwarding h1, _, memoryUnit_setForwarding h2, _, executeUnit_setForwarding h3,
    _, writebackUnit_setForwarding h4, _, memoryUnit_setForwarding h5, writebackUnit_setForwarding h6⟩

end Forwarding

/-- Settles O8: draining runs no Decode, the one unit that looks at the mode, and the program-order reading does not
name it. -/
theorem forwardingToggleKeepsTheProgram : Obligations.ForwardingToggleKeepsTheProgram := by
  unfold Obligations.ForwardingToggleKeepsTheProgram
  exact fun on s d h => ⟨rfl, setForwarding on d, drain_setForwarding h, rfl⟩

end Sys2Proof.Proofs

namespace Sys2Proof.Proofs

open Sys2Proof Sys2Proof.Machine

/-! ### Memory (R42, R43, R46) -/

/-- Addresses wrap (R47): `a` lies `n` above `ea` whichever of the two is counted from. -/
theorem eq_add_ofNat_iff {a ea : Word} {n : Nat} (hn : n < 2 ^ 32) :
    a = ea + BitVec.ofNat 32 n ↔ (a - ea).toNat = n := by
  bv_omega

/-- R43: a read after a write of `n` bytes, by induction on the bytes written. -/
theorem byteRead_memWrite {p : Config.Params} {m : Memory} (hm : m.wf = true) (ea v a : Word) {n : Nat}
    (hn : n ≤ 2 ^ 32) :
    byteRead p (memWrite p m ea n v) a =
      if (a - ea).toNat < n ∧ (regionOf p a).isSome = true then byteOfWord v (a - ea).toNat else byteRead p m a := by
  induction n with
  | zero => simp [memWrite]
  | succ n ih =>
    rw [memWrite_succ, byteRead_byteWrite _ _ _ (memWrite_wf ea v n hm), ih (by omega)]
    simp only [eq_add_ofNat_iff hn]
    by_cases hlast : (a - ea).toNat = n
    · simp [hlast]
    · have hlt : (a - ea).toNat < n + 1 ↔ (a - ea).toNat < n := by omega
      simp only [hlast, hlt, false_and, if_false]

/-- R42, R44: putting a byte on top adds it with its weight. -/
theorem toNat_append_eq_add {w k : Nat} (x : BitVec w) (y : BitVec k) :
    (x ++ y).toNat = y.toNat + 2 ^ k * x.toNat := by
  rw [BitVec.toNat_append, ← Nat.shiftLeft_add_eq_or_of_lt y.isLt, Nat.shiftLeft_eq, Nat.mul_comm, Nat.add_comm]

theorem wordOfBytes_toNat (b0 b1 b2 b3 : Byte) :
    (wordOfBytes b0 b1 b2 b3).toNat =
      b0.toNat + 2 ^ 8 * b1.toNat + 2 ^ 16 * b2.toNat + 2 ^ 24 * b3.toNat := by
  simp only [wordOfBytes, toNat_append_eq_add]
  omega

theorem byteRead_of_no_region {p : Config.Params} {a : Word} (h : regionOf p a = none) (m : Memory) :
    byteRead p m a = 0 := by simp [byteRead, h]

theorem byteWrite_of_no_region {p : Config.Params} {a : Word} (h : regionOf p a = none) (m : Memory) (b : Byte) :
    byteWrite p m a b = m := by simp [byteWrite, h]

/-- Settles O19: the write clause holds of any length up to `2 ^ 32`; the bytes of a read add up with their weights. -/
theorem memoryIsByteWiseLittleEndian : Obligations.MemoryIsByteWiseLittleEndian := by
  unfold Obligations.MemoryIsByteWiseLittleEndian
  refine ⟨fun p m ea v a n hm hn => byteRead_memWrite hm ea v a (by omega), fun p m a => ⟨rfl, ?_, ?_⟩,
    fun p m a b h => ⟨byteRead_of_no_region h m, byteWrite_of_no_region h m b⟩⟩
  · exact toNat_append_eq_add _ _
  · exact wordOfBytes_toNat _ _ _ _

end Sys2Proof.Proofs

namespace Sys2Proof.Proofs

open Sys2Proof Sys2Proof.Machine Sys2Proof.Statement Sys2Proof.Laws

/-! ### The opcode maps (R67, R68, R69, R71) -/

section Maps
variable {w : Word}

theorem decode_of_special (hw : w ≠ 0) (h : opcodeField w = 0) : decode w = decodeSpecial w := by
  rw [decode, if_neg hw, if_pos h]

theorem decode_of_regimm (h : opcodeField w = 1) : decode w = decodeRegimm w := by
  have h0 : opcodeField w ≠ 0 := by rw [h]; decide
  rw [decode, if_neg (c := w = 0) (ne_zero_of_opcodeField h0), if_neg h0, if_pos h]

theorem decode_of_primary (h0 : opcodeField w ≠ 0) (h1 : opcodeField w ≠ 1) : decode w = decodePrimary w := by
  rw [decode, if_neg (c := w = 0) (ne_zero_of_opcodeField h0), if_neg h0, if_neg h1]

end Maps

/-! ### Decoding an encoded instruction (R74) -/

section Encoded
variable (rs rt rd shamt : Reg) (funct opcode : BitVec 6) (imm : Half) (index : BitVec 26)

/-- The R-type words of the SPECIAL map; with `funct` 0 the word can be the NOP's. -/
theorem decode_encodeR (hf : funct ≠ 0) :
    decode (encodeR rs rt rd shamt funct) = decodeSpecial (encodeR rs rt rd shamt funct) :=
  decode_of_special (ne_zero_of_functField (by simpa using hf)) (opcodeField_encodeR ..)

theorem decode_encodeI (h0 : opcode ≠ 0) (h1 : opcode ≠ 1) :
    decode (encodeI opcode rs rt imm) = decodePrimary (encodeI opcode rs rt imm) :=
  decode_of_primary (by simpa using h0) (by simpa using h1)

theorem decode_encodeI_regimm : decode (encodeI 1#6 rs rt imm) = decodeRegimm (encodeI 1#6 rs rt imm) :=
  decode_of_regimm (opcodeField_encodeI ..)

theorem decode_encodeJ (h0 : opcode ≠ 0) (h1 : opcode ≠ 1) :
    decode (encodeJ opcode index) = decodePrimary (encodeJ opcode index) :=
  decode_of_primary (by simpa using h0) (by simpa using h1)

theorem decode_encode_syscall (code : BitVec 20) :
    decode (encode (.syscall code)) = decodeSpecial (encode (.syscall code)) :=
  decode_of_special (ne_zero_of_functField (by simp)) (opcodeField_syscall code)

/-- R71: SLL shares its `funct` with the NOP, and only the fields tell the two apart. -/
theorem encode_sll_ne_zero {rs rt rd shamt : Reg} (h : WellFormed (.sll rs rt rd shamt)) :
    encode (.sll rs rt rd shamt) ≠ 0 := by
  intro h0
  have hrs : rs = 0 := (rsField_encodeR rs rt rd shamt 0).symm.trans (congrArg rsField h0)
  have hrt : rt = 0 := (rtField_encodeR rs rt rd shamt 0).symm.trans (congrArg rtField h0)
  have hrd : rd = 0 := (rdField_encodeR rs rt rd shamt 0).symm.trans (congrArg rdField h0)
  have hsh : shamt = 0 := (shamtField_encodeR rs rt rd shamt 0).symm.trans (congrArg shamtField h0)
  subst hrs hrt hrd hsh
  exact absurd h (by decide)

end Encoded

/-- Settles O14: the layout of an instruction names the map that reads it, and there its number picks its row. -/
theorem decodeEncodeRoundTrip : Obligations.DecodeEncodeRoundTrip := by
  unfold Obligations.DecodeEncodeRoundTrip
  intro i hi
  cases i with
  | nop => exact decode_zero
  | sll rs rt rd shamt =>
    rw [decode_of_special (encode_sll_ne_zero hi) (opcodeField_encodeR ..)]
    simp [decodeSpecial, encode]
  | syscall code => simp [decode_encode_syscall, decodeSpecial]
  | bltz | bgez => simp [encode, decode_encodeI_regimm, decodeRegimm]
  | j | jal => simp [encode, decode_encodeJ, decodePrimary]
  | beq | bne | blez | bgtz | addi | addiu | slti | andi | ori | xori | lui | lb | lh | lw | sb | sh | sw =>
    simp [encode, decode_encodeI, decodePrimary]
  | _ => simp [encode, decode_encodeR, decodeSpecial]

/-! ### Encoding what was decoded (R64, R70) -/

section Layouts
variable {w : Word}

/-- Two neighbouring fields of a word, put together, are one field. -/
theorem adjacent_fields (w : Word) (start len len' : Nat) :
    w.extractLsb' (start + len') len ++ w.extractLsb' start len' = w.extractLsb' start (len + len') :=
  BitVec.extractLsb'_append_extractLsb'_eq_extractLsb' rfl

theorem encodeI_fields (w : Word) : encodeI (opcodeField w) (rsField w) (rtField w) (immField w) = w := by
  simp only [encodeI, opcodeField, rsField, rtField, immField]
  rw [adjacent_fields w 21 6 5, adjacent_fields w 16 11 5, adjacent_fields w 0 16 16, BitVec.extractLsb'_eq_self]

theorem encodeJ_fields (w : Word) : encodeJ (opcodeField w) (indexField w) = w := by
  simp only [encodeJ, opcodeField, indexField]
  rw [adjacent_fields w 0 6 26, BitVec.extractLsb'_eq_self]

theorem encodeR_fields (h : opcodeField w = 0) :
    encodeR (rsField w) (rtField w) (rdField w) (shamtField w) (functField w) = w := by
  rw [encodeR, show 0#6 = opcodeField w from h.symm]
  simp only [opcodeField, rsField, rtField, rdField, shamtField, functField]
  rw [adjacent_fields w 21 6 5, adjacent_fields w 16 11 5, adjacent_fields w 11 16 5, adjacent_fields w 6 21 5,
    adjacent_fields w 0 26 6, BitVec.extractLsb'_eq_self]

theorem encode_syscall_fields (h : opcodeField w = 0) (hf : functField w = 0x0C) :
    encode (.syscall (codeField w)) = w := by
  rw [encode, show 0#6 = opcodeField w from h.symm, show 12#6 = functField w from hf.symm]
  simp only [opcodeField, codeField, functField]
  rw [adjacent_fields w 6 6 20, adjacent_fields w 0 26 6, BitVec.extractLsb'_eq_self]

end Layouts

/-- The answer `d` of an opcode map for the word `w` loses no bit of it. -/
def KeepsBits (w : Word) (d : Decoded) : Prop := ∀ i, d = .instr i → encode i = w

theorem KeepsBits.row {w : Word} {c : Prop} [Decidable c] {i : Instr} {d : Decoded} (hi : c → encode i = w)
    (hd : KeepsBits w d) : KeepsBits w (if c then .instr i else d) := by
  split
  · next hc => exact fun _ h => Decoded.instr.inj h ▸ hi hc
  · exact hd

theorem decodeSpecial_keepsBits {w : Word} (h : opcodeField w = 0) : KeepsBits w (decodeSpecial w) := by
  have hrow {funct : BitVec 6} (hf : functField w = funct) :
      encodeR (rsField w) (rtField w) (rdField w) (shamtField w) funct = w := hf ▸ encodeR_fields h
  unfold decodeSpecial
  iterate 5 refine .row hrow ?_
  refine .row (encode_syscall_fields h) ?_
  iterate 17 refine .row hrow ?_
  exact nofun

theorem decodeRegimm_keepsBits {w : Word} (h : opcodeField w = 1) : KeepsBits w (decodeRegimm w) := by
  have hrow {rt : Reg} (hrt : rtField w = rt) : encodeI 1 (rsField w) rt (immField w) = w :=
    hrt ▸ h ▸ encodeI_fields w
  unfold decodeRegimm
  iterate 2 refine .row hrow ?_
  exact nofun

theorem decodePrimary_keepsBits (w : Word) : KeepsBits w (decodePrimary w) := by
  have hrowJ {opcode : BitVec 6} (h : opcodeField w = opcode) : encodeJ opcode (indexField w) = w :=
    h ▸ encodeJ_fields w
  have hrow {opcode : BitVec 6} (h : opcodeField w = opcode) :
      encodeI opcode (rsField w) (rtField w) (immField w) = w := h ▸ encodeI_fields w
  unfold decodePrimary
  iterate 2 refine .row hrowJ ?_
  iterate 17 refine .row hrow ?_
  exact nofun

theorem encode_of_decode {w : Word} {i : Instr} (hd : decode w = .instr i) : encode i = w := by
  by_cases hw : w = 0
  · subst hw; exact Decoded.instr.inj (decode_zero.symm.trans hd) ▸ rfl
  · by_cases h0 : opcodeField w = 0
    · exact decodeSpecial_keepsBits h0 i (decode_of_special hw h0 ▸ hd)
    · by_cases h1 : opcodeField w = 1
      · exact decodeRegimm_keepsBits h1 i (decode_of_regimm h1 ▸ hd)
      · exact decodePrimary_keepsBits w i (decode_of_primary h0 h1 ▸ hd)

/-- The one term that is not well-formed has the NOP's word, which decodes to the NOP. -/
theorem wellFormed_of_encode_ne_zero {i : Instr} (h : encode i ≠ 0) : WellFormed i := by
  cases i with
  | sll rs rt rd shamt =>
    by_contra hwf
    obtain ⟨⟨⟨rfl, rfl⟩, rfl⟩, rfl⟩ : ((rs = 0 ∧ rt = 0) ∧ rd = 0) ∧ shamt = 0 := by
      simpa [WellFormed, wellFormed] using hwf
    exact h rfl
  | _ => rfl

/-- Settles O15: every row of the maps takes all its fields from the word, and its number is what the word was tested
for. -/
theorem encodeUndoesDecode : Obligations.EncodeUndoesDecode := by
  unfold Obligations.EncodeUndoesDecode
  intro w i hd
  have he := encode_of_decode hd
  refine ⟨he, ?_⟩
  by_cases hi : i = .nop
  · exact hi ▸ rfl
  · exact wellFormed_of_encode_ne_zero (he ▸ ne_zero_of_decode hd hi)

/-! ### The opcode table (R71) -/

/-- The mnemonic of what the decoder answers, if it is an instruction. -/
def nameOf : Decoded → Option String
  | .instr i => some (mnemonic i)
  | .unimplemented _ => none

/-- The bits a mask keeps whole are those of the masked word. -/
theorem field_of_masked {w mask bits : Word} {start len : Nat} (h : w &&& mask = bits)
    (hmask : mask.extractLsb' start len = BitVec.allOnes len) :
    w.extractLsb' start len = bits.extractLsb' start len := by
  rw [← h, BitVec.extractLsb'_and, hmask, BitVec.and_allOnes]

theorem nameOf_row_congr {c : Prop} [Decidable c] {i j : Instr} {d e : Decoded} (hij : mnemonic i = mnemonic j)
    (hde : nameOf d = nameOf e) : nameOf (if c then .instr i else d) = nameOf (if c then .instr j else e) := by
  split
  · exact congrArg some hij
  · exact hde

/-! Each opcode map looks at one field only. -/

theorem nameOf_decodeSpecial_congr {w v : Word} (h : functField w = functField v) :
    nameOf (decodeSpecial w) = nameOf (decodeSpecial v) := by
  unfold decodeSpecial
  rw [h]
  iterate 23 refine nameOf_row_congr rfl ?_
  rfl

theorem nameOf_decodeRegimm_congr {w v : Word} (h : rtField w = rtField v) :
    nameOf (decodeRegimm w) = nameOf (decodeRegimm v) := by
  unfold decodeRegimm
  rw [h]
  iterate 2 refine nameOf_row_congr rfl ?_
  rfl

theorem nameOf_decodePrimary_congr {w v : Word} (h : opcodeField w = opcodeField v) :
    nameOf (decodePrimary w) = nameOf (decodePrimary v) := by
  unfold decodePrimary
  rw [h]
  iterate 19 refine nameOf_row_congr rfl ?_
  rfl

/-- A row of the table agrees with the opcode map its mask belongs to: the four kinds of rows. -/
def RowAgrees (row : String × Word × Word) : Prop :=
  (row.2.2 = 0xFFFFFFFF ∧ row.2.1 = 0) ∨
  (row.2.2 = 0xFC00003F ∧ opcodeField row.2.1 = 0 ∧ nameOf (decodeSpecial row.2.1) = some row.1) ∨
  (row.2.2 = 0xFC1F0000 ∧ opcodeField row.2.1 = 1 ∧ nameOf (decodeRegimm row.2.1) = some row.1) ∨
  (row.2.2 = 0xFC000000 ∧ opcodeField row.2.1 ≠ 0 ∧ opcodeField row.2.1 ≠ 1 ∧
    nameOf (decodePrimary row.2.1) = some row.1)

theorem opcodeTable_agrees : ∀ row ∈ opcodeTable, RowAgrees row := by
  unfold RowAgrees
  decide

/-- The decoder names a word other than the NOP's as any row it matches does, so the order of the rows matters for the
NOP only. -/
theorem nameOf_decode_of_row {row : String × Word × Word} (hrow : row ∈ opcodeTable) {w : Word} (hw : w ≠ 0)
    (hm : w &&& row.2.2 = row.2.1) : nameOf (decode w) = some row.1 := by
  rcases opcodeTable_agrees row hrow with ⟨hmask, hbits⟩ | ⟨hmask, hop, hname⟩ | ⟨hmask, hop, hname⟩ |
    ⟨hmask, h0, h1, hname⟩ <;> rw [hmask] at hm
  · exact absurd ((BitVec.and_allOnes (x := w)).symm.trans (hm.trans hbits)) hw
  · have hw0 : opcodeField w = 0 := (field_of_masked hm rfl).trans hop
    rw [decode_of_special hw hw0, nameOf_decodeSpecial_congr (field_of_masked hm rfl), hname]
  · have hw1 : opcodeField w = 1 := (field_of_masked hm rfl).trans hop
    rw [decode_of_regimm hw1, nameOf_decodeRegimm_congr (field_of_masked hm rfl), hname]
  · have heq : opcodeField w = opcodeField row.2.1 := field_of_masked hm rfl
    rw [decode_of_primary (heq ▸ h0) (heq ▸ h1), nameOf_decodePrimary_congr heq, hname]

/-- The per-instruction statements, collected: every instruction has a row of the table that its word matches. -/
theorem exists_row_of_encode (i : Instr) : MatchesTable.Statement i := by
  cases i <;> simp only [
    MatchesTable.nop, MatchesTable.add, MatchesTable.addu, MatchesTable.sub, MatchesTable.subu, MatchesTable.and,
    MatchesTable.or, MatchesTable.xor, MatchesTable.nor, MatchesTable.slt, MatchesTable.sll, MatchesTable.srl,
    MatchesTable.sra, MatchesTable.addi, MatchesTable.addiu, MatchesTable.slti, MatchesTable.andi, MatchesTable.ori,
    MatchesTable.xori, MatchesTable.lui, MatchesTable.mult, MatchesTable.multu, MatchesTable.div, MatchesTable.divu,
    MatchesTable.mfhi, MatchesTable.mflo, MatchesTable.mthi, MatchesTable.mtlo, MatchesTable.beq, MatchesTable.bne,
    MatchesTable.blez, MatchesTable.bgtz, MatchesTable.bltz, MatchesTable.bgez, MatchesTable.j, MatchesTable.jal,
    MatchesTable.jr, MatchesTable.jalr, MatchesTable.lb, MatchesTable.lh, MatchesTable.lw, MatchesTable.sb,
    MatchesTable.sh, MatchesTable.sw, MatchesTable.syscall]

/-- The table names a word as the decoder does, and names no word that the decoder rejects. -/
theorem tableLookup_eq_nameOf_decode (w : Word) : tableLookup w = nameOf (decode w) := by
  by_cases hw : w = 0
  · subst hw; decide
  · unfold tableLookup
    cases hfind : opcodeTable.find? (fun row => w &&& row.2.2 == row.2.1) with
    | some row =>
      have hm : w &&& row.2.2 = row.2.1 := by simpa using List.find?_some hfind
      exact (nameOf_decode_of_row (List.mem_of_find?_eq_some hfind) hw hm).symm
    | none =>
      cases hd : decode w with
      | unimplemented v => rfl
      | instr i =>
        obtain ⟨row, hrow, -, hm⟩ := exists_row_of_encode i
        rw [encode_of_decode hd] at hm
        simpa [hm] using List.find?_eq_none.1 hfind row hrow

/-- Settles O16: the table and the decoder name the same words alike, and the decoder hands a rejected word back. -/
theorem decodeFollowsOpcodeTable : Obligations.DecodeFollowsOpcodeTable := by
  unfold Obligations.DecodeFollowsOpcodeTable
  intro w
  rw [tableLookup_eq_nameOf_decode]
  cases hd : decode w with
  | instr i => rfl
  | unimplemented v => exact ⟨rfl, eq_of_unimplemented hd⟩

/-! ### The bytes of a word (R60, R44) -/

theorem wordOfBytes_byteOfWord (w : Word) :
    wordOfBytes (byteOfWord w 0) (byteOfWord w 1) (byteOfWord w 2) (byteOfWord w 3) = w := by
  simp only [wordOfBytes, byteOfWord]
  rw [adjacent_fields w 16 8 8, adjacent_fields w 8 16 8, adjacent_fields w 0 24 8, BitVec.extractLsb'_eq_self]

/-- Decoding reads one word, lowest byte first, and leaves the rest of the stream. -/
theorem decodeBytes_bytesOfWord (w : Word) (rest : List Byte) :
    decodeBytes (bytesOfWord w ++ rest) = some (decode w, rest) := by
  simp only [bytesOfWord, List.cons_append, List.nil_append, decodeBytes, wordOfBytes_byteOfWord]

/-- Settles O17: the bytes of a word make the word again, and it decodes by O14. -/
theorem decodeBytesOfEncoding : Obligations.DecodeBytesOfEncoding := by
  unfold Obligations.DecodeBytesOfEncoding
  intro i rest hi
  rw [decodeBytes_bytesOfWord, decodeEncodeRoundTrip i hi]

/-! ### What Decode issues (R75, R65, R89, R90) -/

/-- What the instruction `i`, held as the word `w`, asks of Decode by the tables of R75 and R65. -/
def issueOf (i : Instr) (w : Word) : Issue :=
  { a := sourceA i, b := sourceB i, storeData := sourceStore i, dest := destOf i
    imm := if zeroExtends i then zeroImm (immField w) else signImm (immField w)
    shamt := shamtField w, target := indexField w }

/-- Decode of every instruction but the NOP is the issue the tables give. -/
theorem exec_decode_eq_issueOf {i : Instr} {s : State} (hi : i ≠ .nop) (hw : s.ifId.ir = encode i) :
    exec i (s.at .decode) = .next (issue (issueOf i s.ifId.ir) (s.at .decode)) := by
  cases i with
  | nop => exact absurd rfl hi
  | sll rs rt rd shamt | srl rs rt rd shamt | sra rs rt rd shamt =>
    have hsh : shamtField s.ifId.ir = shamt := hw ▸ shamtField_encodeR ..
    subst hsh
    rfl
  | j index | jal index =>
    have hx : indexField s.ifId.ir = index := hw ▸ indexField_encodeJ ..
    subst hx
    rfl
  | addi rs rt imm | addiu rs rt imm | slti rs rt imm | andi rs rt imm | ori rs rt imm | xori rs rt imm
  | lui rs rt imm | beq rs rt imm | bne rs rt imm | blez rs rt imm | bgtz rs rt imm | bltz rs imm | bgez rs imm
  | lb rs rt imm | lh rs rt imm | lw rs rt imm | sb rs rt imm | sh rs rt imm | sw rs rt imm =>
    have himm : immField s.ifId.ir = imm := hw ▸ immField_encodeI ..
    subst himm
    rfl
  | _ => rfl

/-- The latch issued by the tables, whatever the hazard check makes of its sources. -/
theorem issuedLatch_issueOf (i : Instr) (s : State) :
    issuedLatch (issueOf i s.ifId.ir) s = issuedFor i s (operandValue s) := by
  have hfield (o : Option Reg) : operandField s o = fieldFrom (operandValue s) o := by cases o <;> rfl
  simp only [issuedLatch, hfield]
  rfl

/-- R92, R97: without a producer the sources come from the register file that Writeback has written. -/
theorem operandValue_of_noProducer {s : State} (h : NoProducer s) : operandValue s = readReg s.nxt.x := by
  funext r
  rw [operandValue, hazard_of_noProducer h]

/-- Settles O50: Decode makes the issue the tables give, and with no producer ahead it neither stalls nor forwards. -/
theorem decodeIssuesByTheTable : Obligations.DecodeIssuesByTheTable := by
  unfold Obligations.DecodeIssuesByTheTable
  intro i s hi hw hp
  have hp' : NoProducer (s.at .decode) := hp
  have hlatch := issuedLatch_issueOf i (s.at .decode)
  rw [operandValue_of_noProducer hp'] at hlatch
  rw [exec_decode_eq_issueOf hi hw, issue_of_noProducer hp']
  exact congrArg (Host.Outcome.next ∘ (s.at .decode).setIdEx) hlatch

end Sys2Proof.Proofs

namespace Sys2Proof.Proofs

open Sys2Proof Sys2Proof.Machine Sys2Proof.Statement

/-! ### The stage units as functions of the state (R83 to R88)

What a unit answers depends on one latch and a few fields; writing that function down makes a cycle, and a drained
pipeline, a composition of functions. -/

/-! #### Writeback -/

/-- R83: the word in this latch writes a register in Writeback. -/
def retires (l : Latch) : Bool :=
  match decode l.ir with
  | .instr .nop | .instr (.syscall _) => false
  | _ => l.regWrite

theorem retires_iff_writesRegister {l : Latch} : retires l = true ↔ WritesRegister l := by
  unfold retires WritesRegister IsSyscall
  rcases decode_cases l.ir with ⟨h0, hd⟩ | ⟨h0, ⟨i, hi, hd⟩ | hd⟩
  · exact iff_of_false (by simp only [hd]; exact Bool.false_ne_true) (fun h => h.1 h0)
  · cases i <;> simp_all
  · simp only [hd]
    exact ⟨fun hw => ⟨h0, nofun, hw⟩, fun ⟨_, _, hw⟩ => hw⟩

/-- A well-formed latch with a destination retires it (R27 item 6). -/
theorem retires_of_latchOk {l : Latch} (h : latchOk l = true) : retires l = l.regWrite := by
  unfold retires
  cases hw : l.regWrite with
  | false => split <;> rfl
  | true =>
    have hdest : destMatches l = true := (latchOk_iff.1 h).2 hw
    split
    · next hd => simp [destMatches, hd, destOf] at hdest
    · next hd => simp [destMatches, hd, destOf] at hdest
    · rfl

/-- The register file after the instruction in latch `l` has retired. -/
def retired (l : Latch) (x : Vector Word 32) : Vector Word 32 :=
  if retires l then writeReg x l.registerRd (writtenValue l) else x

/-- R210: the word in this latch halts the machine, `x` being the committed register file. -/
def haltsFrom (l : Latch) (x : Vector Word 32) : Bool :=
  match decode l.ir with
  | .instr (.syscall _) => readReg x serviceRegister == haltCode
  | _ => false

theorem haltsFrom_iff {l : Latch} {x : Vector Word 32} :
    haltsFrom l x = true ↔ IsSyscall l.ir ∧ readReg x 2 = 10 := by
  unfold haltsFrom IsSyscall
  split
  · next hd => simp [hd, serviceRegister, haltCode]
  · next hno => exact iff_of_false (by simp) fun ⟨⟨code, hd⟩, _⟩ => hno code hd

/-- R83. -/
def afterWriteback (s : State) : State :=
  { s with nxt := { s.nxt with x := retired s.memWb s.nxt.x }, halted := s.halted || haltsFrom s.memWb s.cur.x,
           stage := .writeback }

theorem writebackUnit_eq (s : State) : writebackUnit s = .next (afterWriteback s) := by
  have ha := writebackUnit_answer s
  generalize writebackUnit s = r at ha
  cases ha with
  | register hw =>
    obtain ⟨-, hno, -⟩ := id hw
    have hh : haltsFrom s.memWb s.cur.x = false := Bool.eq_false_iff.2 fun h => hno (haltsFrom_iff.1 h).1
    simp only [afterWriteback, retired, retires_iff_writesRegister.2 hw, hh, if_true, Bool.or_false]
    rfl
  | halts hs hcode =>
    have hr : retires s.memWb = false := Bool.eq_false_iff.2 fun h => by
      obtain ⟨-, hno, -⟩ := retires_iff_writesRegister.1 h
      exact hno hs
    simp only [afterWriteback, retired, hr, haltsFrom_iff.2 ⟨hs, hcode⟩, Bool.or_true]
    rfl
  | nothing hw hs =>
    have hr : retires s.memWb = false := Bool.eq_false_iff.2 fun h => hw (retires_iff_writesRegister.1 h)
    have hh : haltsFrom s.memWb s.cur.x = false := Bool.eq_false_iff.2 fun h => hs (haltsFrom_iff.1 h)
    simp only [afterWriteback, retired, hr, hh, Bool.or_false]
    rfl

/-! #### Memory -/

/-- `LMD` after Memory has acted on the decoded word `d` held in latch `l` (R191 to R193). -/
def lmdOf (p : Config.Params) (m : Memory) (l : Latch) (d : Decoded) : Word :=
  match d with
  | .instr (.lb _ _ _) => (memRead8 p m l.aluOutput).signExtend 32
  | .instr (.lh _ _ _) => (memRead16 p m l.aluOutput).signExtend 32
  | .instr (.lw _ _ _) => memRead32 p m l.aluOutput
  | _ => l.lmd

/-- The latch Memory passes on. -/
def loaded (p : Config.Params) (m : Memory) (l : Latch) : Latch := { l with lmd := lmdOf p m l (decode l.ir) }

/-- The memory after the access of the instruction in latch `l`: nothing is written for a word that is no store. -/
def stored (p : Config.Params) (m : Memory) (l : Latch) : Memory :=
  memWrite p m l.aluOutput (storeSize l.ir) l.storeData

/-- R84. -/
def afterMemory (s : State) : State :=
  { s with memWb := loaded s.params s.mem s.exMem, mem := stored s.params s.mem s.exMem, stage := .memory }

theorem memoryUnit_eq (s : State) : memoryUnit s = .next (afterMemory s) := by
  unfold memoryUnit afterMemory loaded stored storeSize
  cases hd : decode s.exMem.ir with
  | unimplemented v =>
    rw [runUnit_unimplemented s hd]
    rfl
  | instr i =>
    rw [runUnit_instr s hd]
    cases i <;> rfl

/-! #### Execute -/

/-- `ALUOutput` after Execute has acted on the decoded word `d` held in latch `l`, HI and LO being `hi` and `lo`. -/
def aluOf (hi lo : Word) (l : Latch) (d : Decoded) : Word :=
  match d with
  | .instr (.add _ _ _ _) | .instr (.addu _ _ _ _) => addWords l.a l.b
  | .instr (.sub _ _ _ _) | .instr (.subu _ _ _ _) => subWords l.a l.b
  | .instr (.and _ _ _ _) => andWords l.a l.b
  | .instr (.or _ _ _ _) => orWords l.a l.b
  | .instr (.xor _ _ _ _) => xorWords l.a l.b
  | .instr (.nor _ _ _ _) => norWords l.a l.b
  | .instr (.slt _ _ _ _) => compareWord l.a l.b
  | .instr (.sll _ _ _ _) => shiftLeft l.b l.shamt.toNat
  | .instr (.srl _ _ _ _) => shiftRight l.b l.shamt.toNat
  | .instr (.sra _ _ _ _) => shiftRightArith l.b l.shamt.toNat
  | .instr (.addi _ _ _) | .instr (.addiu _ _ _) => addWords l.a l.imm
  | .instr (.slti _ _ _) => compareWord l.a l.imm
  | .instr (.andi _ _ _) => andWords l.a l.imm
  | .instr (.ori _ _ _) => orWords l.a l.imm
  | .instr (.xori _ _ _) => xorWords l.a l.imm
  | .instr (.lui _ _ _) => upperImm l.imm
  | .instr (.mfhi _ _ _ _) => hi
  | .instr (.mflo _ _ _ _) => lo
  | .instr (.jal _) | .instr (.jalr _ _ _ _) => linkOf l
  | .instr (.lb _ _ _) | .instr (.lh _ _ _) | .instr (.lw _ _ _)
  | .instr (.sb _ _ _) | .instr (.sh _ _ _) | .instr (.sw _ _ _) => effectiveAddress l
  | _ => l.aluOutput

/-- (HI, LO) after Execute has acted on the decoded word `d` held in latch `l` (R151 to R158). -/
def hiLoAfter (p : Config.Params) (hiLo : Word × Word) (l : Latch) (d : Decoded) : Word × Word :=
  match d with
  | .instr (.mult _ _ _ _) => signedProduct l.a l.b
  | .instr (.multu _ _ _ _) => unsignedProduct l.a l.b
  | .instr (.div _ _ _ _) => (signedQuotient p l.a l.b).getD hiLo
  | .instr (.divu _ _ _ _) => (unsignedQuotient l.a l.b).getD hiLo
  | .instr (.mthi _ _ _ _) => (l.a, hiLo.2)
  | .instr (.mtlo _ _ _ _) => (hiLo.1, l.a)
  | _ => hiLo

/-- The latch Execute passes on. -/
def computed (hi lo : Word) (l : Latch) : Latch := { l with aluOutput := aluOf hi lo l (decode l.ir) }

/-- (HI, LO) after the instruction in latch `l` has executed. -/
def hiLoWritten (p : Config.Params) (hiLo : Word × Word) (l : Latch) : Word × Word :=
  hiLoAfter p hiLo l (decode l.ir)

/-- R85. -/
def afterExecute (s : State) : State :=
  { s with exMem := computed s.cur.hi s.cur.lo s.idEx,
           nxt := { s.nxt with hi := (hiLoWritten s.params (s.nxt.hi, s.nxt.lo) s.idEx).1,
                               lo := (hiLoWritten s.params (s.nxt.hi, s.nxt.lo) s.idEx).2 },
           branchPending := (latchTransfer s.idEx).isSome || s.branchPending,
           branchTarget := (latchTransfer s.idEx).getD s.branchTarget, stage := .execute }

/-- Execute of a conditional branch, taken or not, as one record. -/
theorem executeBranch_eq (taken : Bool) (s : State) :
    executeBranch taken s =
      { s with exMem := s.idEx,
               branchPending := (if taken then some (branchTargetOf s.idEx) else none).isSome || s.branchPending,
               branchTarget := (if taken then some (branchTargetOf s.idEx) else none).getD s.branchTarget } := by
  cases taken <;> rfl

/-- Execute of a multiply or divide, whether or not it writes, as one record. -/
theorem hiLoOp_execute_eq (rs rt : Reg) (f : Word → Word → Option (Word × Word)) (s : State) :
    hiLoOp rs rt f (s.at .execute) = .next
      { s with exMem := s.idEx,
               nxt := { s.nxt with hi := ((f s.idEx.a s.idEx.b).getD (s.nxt.hi, s.nxt.lo)).1,
                                   lo := ((f s.idEx.a s.idEx.b).getD (s.nxt.hi, s.nxt.lo)).2 },
               stage := .execute } := by
  simp only [hiLoOp, byStage_execute, State.at_idEx]
  cases f s.idEx.a s.idEx.b <;> rfl

theorem executeUnit_eq (s : State) : executeUnit s = .next (afterExecute s) := by
  unfold executeUnit afterExecute computed hiLoWritten latchTransfer
  cases hd : decode s.idEx.ir with
  | unimplemented v =>
    rw [runUnit_unimplemented s hd]
    rfl
  | instr i =>
    rw [runUnit_instr s hd]
    cases i with
    | beq | bne | blez | bgtz | bltz | bgez => exact congrArg Host.Outcome.next (executeBranch_eq _ (s.at .execute))
    | div rs rt | divu rs rt => exact hiLoOp_execute_eq rs rt _ s
    | _ => rfl

/-! #### Decode -/

/-- What Decode sends on for `i`, held in `IF_ID`, with the source values `value`: a NOP becomes a bubble (R211). -/
def latchFor (i : Instr) (s : State) (value : Reg → Word) : Latch :=
  if i = .nop then Latch.clear else issuedFor i s value

theorem latchFor_nop (s : State) (value : Reg → Word) : latchFor .nop s value = Latch.clear := if_pos rfl

theorem latchFor_of_ne_nop {i : Instr} (hi : i ≠ .nop) (s : State) (value : Reg → Word) :
    latchFor i s value = issuedFor i s value := if_neg hi

/-- The stall the word in `IF_ID` must wait out (R96). -/
def stallDemand (s : State) : Nat :=
  match decode s.ifId.ir with
  | .instr i => stallNeeded (issueOf i s.ifId.ir) s
  | .unimplemented _ => 0

/-- The latch for the word in `IF_ID`, once it need not stall (R97, R212). -/
def issued (s : State) : Latch :=
  match decode s.ifId.ir with
  | .instr i => latchFor i s (operandValue s)
  | .unimplemented _ => issuedLatch (plainIssue s.ifId.ir) s

/-- R212: the word is in no row of the opcode table. -/
def isUnimplemented (w : Word) : Bool :=
  match decode w with
  | .instr _ => false
  | .unimplemented _ => true

/-- R89 to R97, behind the entry conditions of Decode. -/
def afterIssue (s : State) : State :=
  { s with idEx := if 0 < stallDemand s then Latch.clear else issued s,
           stall := if 0 < stallDemand s then stallDemand s else s.stall,
           unimplementedSeen := isUnimplemented s.ifId.ir || s.unimplementedSeen, stage := .decode }

section DecodedWord
variable {s : State} {i : Instr}

theorem stallDemand_of_decode (hd : decode s.ifId.ir = .instr i) :
    stallDemand s = stallNeeded (issueOf i s.ifId.ir) s := by simp only [stallDemand, hd]

theorem issued_of_decode (hd : decode s.ifId.ir = .instr i) : issued s = latchFor i s (operandValue s) := by
  simp only [issued, hd]

theorem isUnimplemented_of_decode {w : Word} (hd : decode w = .instr i) : isUnimplemented w = false := by
  simp only [isUnimplemented, hd]

end DecodedWord

theorem runUnit_decode_eq (s : State) : runUnit .decode s.ifId.ir s = .next (afterIssue s) := by
  cases hd : decode s.ifId.ir with
  | unimplemented v =>
    rw [runUnit_unimplemented s hd]
    simp only [afterIssue, stallDemand, issued, isUnimplemented, hd]
    rfl
  | instr i =>
    rw [runUnit_instr s hd, afterIssue, stallDemand_of_decode hd, issued_of_decode hd, isUnimplemented_of_decode hd]
    by_cases hi : i = .nop
    · subst hi
      rfl
    · rw [exec_decode_eq_issueOf hi (encode_of_decode hd).symm, latchFor_of_ne_nop hi, ← issuedLatch_issueOf]
      have hdemand : stallNeeded (issueOf i s.ifId.ir) (s.at .decode) = stallNeeded (issueOf i s.ifId.ir) s := rfl
      rcases issue_cases (s.at .decode) (issueOf i s.ifId.ir) with ⟨h0, h⟩ | ⟨hpos, -, h⟩
      · rw [h, ← hdemand, h0]
        rfl
      · rw [h, ← hdemand, if_pos hpos, if_pos hpos]
        rfl

/-- A NOP or a bubble in `IF_ID` demands no stall and is sent on as a bubble (R211). -/
theorem afterIssue_of_nop {s : State} (h : s.ifId.ir = 0) : afterIssue s = (s.at .decode).setIdEx Latch.clear := by
  have hd : decode s.ifId.ir = .instr .nop := decode_eq_nop_iff.2 h
  rw [afterIssue, stallDemand_of_decode hd, issued_of_decode hd, isUnimplemented_of_decode hd, latchFor_nop]
  rfl

/-- R88. -/
def afterDecode (s : State) : State :=
  if s.branchPending = true ∨ 0 < s.stall then (s.at .decode).setIdEx Latch.clear else afterIssue s

theorem decodeUnit_eq (s : State) : decodeUnit s = .next (afterDecode s) := by
  unfold afterDecode
  rcases decodeUnit_cases s with ⟨hwhy, h⟩ | ⟨hb, hs, h⟩ <;> rw [h]
  · rw [if_pos hwhy]
  · rw [if_neg (by simp [hb, hs]), runUnit_decode_eq]

/-! ### A cycle as a composition (R80, R81) -/

theorem beforeDecode_eq (s : State) : beforeDecode s = afterExecute (afterMemory (afterWriteback s)) := by
  simp only [beforeDecode, writebackUnit_eq, memoryUnit_eq, executeUnit_eq, settled]

theorem beforeFetch_eq (s : State) : beforeFetch s = afterDecode (beforeDecode s) := by
  simp only [beforeFetch, decodeUnit_eq, settled]

theorem executed_eq (s : State) : executed s = afterExecute s := by
  simp only [executed, executeUnit_eq, settled]

/-- A step of a core that is not halted: the five units and the commit. -/
theorem step_eq_commit {s : State} (h : s.halted = false) : step s = .next (beforeCommit s).commit := by
  simp only [step, stepCycle, cycle, h, writebackUnit_eq, memoryUnit_eq, executeUnit_eq, decodeUnit_eq,
    Result.andThen_next, beforeCommit, beforeFetch_eq, beforeDecode_eq]
  rfl

theorem eq_commit_of_step {s t : State} (hrun : s.halted = false) (h : step s = .next t) :
    t = (beforeCommit s).commit :=
  (Host.Outcome.next.inj ((step_eq_commit hrun).symm.trans h)).symm

/-! #### The state in which Decode runs -/

section BeforeDecode
variable (s : State)

@[simp] theorem beforeDecode_cur : (beforeDecode s).cur = s.cur := by rw [beforeDecode_eq]; rfl
@[simp] theorem beforeDecode_nxt : (beforeDecode s).nxt =
    { s.nxt with x := retired s.memWb s.nxt.x, hi := (hiLoWritten s.params (s.nxt.hi, s.nxt.lo) s.idEx).1,
                 lo := (hiLoWritten s.params (s.nxt.hi, s.nxt.lo) s.idEx).2 } := by rw [beforeDecode_eq]; rfl
@[simp] theorem beforeDecode_ifId : (beforeDecode s).ifId = s.ifId := by rw [beforeDecode_eq]; rfl
@[simp] theorem beforeDecode_idEx : (beforeDecode s).idEx = s.idEx := by rw [beforeDecode_eq]; rfl
@[simp] theorem beforeDecode_exMem : (beforeDecode s).exMem = computed s.cur.hi s.cur.lo s.idEx := by
  rw [beforeDecode_eq]; rfl
@[simp] theorem beforeDecode_memWb : (beforeDecode s).memWb = loaded s.params s.mem s.exMem := by
  rw [beforeDecode_eq]; rfl
@[simp] theorem beforeDecode_halted : (beforeDecode s).halted = (s.halted || haltsFrom s.memWb s.cur.x) := by
  rw [beforeDecode_eq]; rfl
@[simp] theorem beforeDecode_branchPending :
    (beforeDecode s).branchPending = ((latchTransfer s.idEx).isSome || s.branchPending) := by rw [beforeDecode_eq]; rfl
@[simp] theorem beforeDecode_branchTarget :
    (beforeDecode s).branchTarget = (latchTransfer s.idEx).getD s.branchTarget := by rw [beforeDecode_eq]; rfl
@[simp] theorem beforeDecode_stall : (beforeDecode s).stall = s.stall := by rw [beforeDecode_eq]; rfl
@[simp] theorem beforeDecode_forwarding : (beforeDecode s).forwarding = s.forwarding := by rw [beforeDecode_eq]; rfl
@[simp] theorem beforeDecode_cycleCount : (beforeDecode s).cycleCount = s.cycleCount := by rw [beforeDecode_eq]; rfl
@[simp] theorem beforeDecode_unimplementedSeen : (beforeDecode s).unimplementedSeen = s.unimplementedSeen := by
  rw [beforeDecode_eq]; rfl
@[simp] theorem beforeDecode_mem : (beforeDecode s).mem = stored s.params s.mem s.exMem := by
  rw [beforeDecode_eq]; rfl
@[simp] theorem beforeDecode_params : (beforeDecode s).params = s.params := by rw [beforeDecode_eq]; rfl

end BeforeDecode

/-- Execute sees in the cycle what it would see alone. -/
theorem executed_branchPending (s : State) : (executed s).branchPending = (beforeDecode s).branchPending := by
  rw [executed_eq, beforeDecode_eq]; rfl

theorem executed_branchTarget (s : State) : (executed s).branchTarget = (beforeDecode s).branchTarget := by
  rw [executed_eq, beforeDecode_eq]; rfl

/-! #### What Decode leaves unchanged -/

/-- Decode writes `ID_EX`, the stall counter and `unimplemented_seen`. -/
theorem afterDecode_frame (s : State) :
    afterDecode s = { s with idEx := (afterDecode s).idEx, stall := (afterDecode s).stall,
                             unimplementedSeen := (afterDecode s).unimplementedSeen, stage := (afterDecode s).stage } :=
  (decodeUnit_writes (decodeUnit_eq s)).1

section AfterDecode
variable (s : State)

@[simp] theorem afterDecode_cur : (afterDecode s).cur = s.cur := (congrArg State.cur (afterDecode_frame s) :)
@[simp] theorem afterDecode_nxt : (afterDecode s).nxt = s.nxt := (congrArg State.nxt (afterDecode_frame s) :)
@[simp] theorem afterDecode_ifId : (afterDecode s).ifId = s.ifId := (congrArg State.ifId (afterDecode_frame s) :)
@[simp] theorem afterDecode_exMem : (afterDecode s).exMem = s.exMem := (congrArg State.exMem (afterDecode_frame s) :)
@[simp] theorem afterDecode_memWb : (afterDecode s).memWb = s.memWb := (congrArg State.memWb (afterDecode_frame s) :)
@[simp] theorem afterDecode_halted : (afterDecode s).halted = s.halted :=
  (congrArg State.halted (afterDecode_frame s) :)
@[simp] theorem afterDecode_branchPending : (afterDecode s).branchPending = s.branchPending :=
  (congrArg State.branchPending (afterDecode_frame s) :)
@[simp] theorem afterDecode_branchTarget : (afterDecode s).branchTarget = s.branchTarget :=
  (congrArg State.branchTarget (afterDecode_frame s) :)
@[simp] theorem afterDecode_forwarding : (afterDecode s).forwarding = s.forwarding :=
  (congrArg State.forwarding (afterDecode_frame s) :)
@[simp] theorem afterDecode_cycleCount : (afterDecode s).cycleCount = s.cycleCount :=
  (congrArg State.cycleCount (afterDecode_frame s) :)
@[simp] theorem afterDecode_mem : (afterDecode s).mem = s.mem := (congrArg State.mem (afterDecode_frame s) :)
@[simp] theorem afterDecode_params : (afterDecode s).params = s.params :=
  (congrArg State.params (afterDecode_frame s) :)

variable {s}

/-- A flushed or stalled Decode sends a bubble on (R88). -/
theorem afterDecode_of_blocked (h : s.branchPending = true ∨ 0 < s.stall) :
    afterDecode s = (s.at .decode).setIdEx Latch.clear := if_pos h

theorem afterDecode_of_ready (hb : s.branchPending = false) (hs : s.stall = 0) : afterDecode s = afterIssue s :=
  if_neg (by simp [hb, hs])

/-- What Decode sends on when it neither stalls nor is flushed. -/
theorem afterDecode_idEx_of_ready (hb : s.branchPending = false) (hs : (afterDecode s).stall = 0) :
    (afterDecode s).idEx = issued s ∧ s.stall = 0 ∧ stallDemand s = 0 := by
  rcases Nat.eq_zero_or_pos s.stall with h0 | hpos
  · rw [afterDecode_of_ready hb h0] at hs ⊢
    rcases Nat.eq_zero_or_pos (stallDemand s) with hd | hd
    · exact ⟨by simp [afterIssue, hd], h0, hd⟩
    · exact absurd (show stallDemand s = 0 by simpa [afterIssue, hd] using hs) hd.ne'
  · rw [afterDecode_of_blocked (.inr hpos)] at hs
    exact absurd hs hpos.ne'

/-- What Decode sends on when it stalls or is flushed. -/
theorem afterDecode_idEx_of_blocked (h : s.branchPending = true ∨ 0 < (afterDecode s).stall) :
    (afterDecode s).idEx = Latch.clear := by
  by_cases hblocked : s.branchPending = true ∨ 0 < s.stall
  · rw [afterDecode_of_blocked hblocked]
    rfl
  · have hs := h.resolve_left (fun hb => hblocked (.inl hb))
    rw [afterDecode, if_neg hblocked] at hs ⊢
    have hd : 0 < stallDemand s := by
      by_contra hd
      exact hblocked (.inr (by simpa [afterIssue, hd] using hs))
    simp [afterIssue, hd]

/-- A stall that was not there when the cycle began has been demanded in Decode. -/
theorem stallDemand_pos_of_afterDecode (hs : s.stall = 0) (h : 0 < (afterDecode s).stall) : 0 < stallDemand s := by
  by_contra hd
  unfold afterDecode at h
  split at h
  · exact absurd hs h.ne'
  · simp [afterIssue, hd, hs] at h

end AfterDecode

end Sys2Proof.Proofs

namespace Sys2Proof.Proofs

open Sys2Proof Sys2Proof.Machine Sys2Proof.Statement

/-! ### The order of the units and the commit (R80, R81) -/

section ExecInUnit
variable {s : State} {i : Instr}

theorem exec_writeback_eq (hd : decode s.memWb.ir = .instr i) : exec i (s.at .writeback) = .next (afterWriteback s) :=
  (runUnit_instr s hd).symm.trans (writebackUnit_eq s)

theorem exec_memory_eq (hd : decode s.exMem.ir = .instr i) : exec i (s.at .memory) = .next (afterMemory s) :=
  (runUnit_instr s hd).symm.trans (memoryUnit_eq s)

theorem exec_execute_eq (hd : decode s.idEx.ir = .instr i) : exec i (s.at .execute) = .next (afterExecute s) :=
  (runUnit_instr s hd).symm.trans (executeUnit_eq s)

theorem exec_decode_eq (hd : decode s.ifId.ir = .instr i) : exec i (s.at .decode) = .next (afterIssue s) :=
  (runUnit_instr s hd).symm.trans (runUnit_decode_eq s)

end ExecInUnit

/-- Settles O10: each unit leaves the input latches of the units behind it alone, and Decode is what its entry conditions
say. -/
theorem stepRunsDecodedInstructions : Obligations.StepRunsDecodedInstructions := by
  unfold Obligations.StepRunsDecodedInstructions
  intro s iw im ie id hrun hw hm he hd
  have hd3 : decode (beforeDecode s).ifId.ir = .instr id := by rwa [beforeDecode_ifId]
  have hstep := step_eq_commit hrun
  rw [beforeCommit, beforeFetch_eq] at hstep
  refine ⟨afterWriteback s, afterMemory (afterWriteback s), beforeDecode s, exec_writeback_eq hw,
    exec_memory_eq (s := afterWriteback s) hm, ?_, fun hb hs => ⟨_, exec_decode_eq hd3, ?_⟩, fun hwhy => ?_⟩
  · rw [beforeDecode_eq]
    exact exec_execute_eq (s := afterMemory (afterWriteback s)) he
  · rw [hstep, afterDecode_of_ready hb hs]
  · rw [hstep, afterDecode_of_blocked hwhy]

/-- Settles O11: the commit copies what the units leave, and none of them writes the cycle counter, the mode or the
parameters. -/
theorem cycleEndsWithCommit : Obligations.CycleEndsWithCommit := by
  unfold Obligations.CycleEndsWithCommit
  intro s t hrun hstep
  obtain rfl := eq_commit_of_step hrun hstep
  have hframe := (fetchUnit_writes (beforeFetch s)).1
  have hcount : (beforeCommit s).cycleCount = (beforeFetch s).cycleCount := (congrArg State.cycleCount hframe :)
  have hmode : (beforeCommit s).forwarding = (beforeFetch s).forwarding := (congrArg State.forwarding hframe :)
  have hparams : (beforeCommit s).params = (beforeFetch s).params := fetchUnit_params _
  rw [beforeFetch_eq] at hcount hmode hparams
  refine ⟨rfl, rfl, ?_, ?_, ?_⟩
  · simp [hcount]
  · simp [hmode]
  · simp [hparams]

/-! ### The stall an instruction demands, by its sources (R75, R93, R96) -/

/-- The sources of R75 are those that go to `A`, `B` and `StoreData`. -/
theorem mem_sourcesOf_iff {i : Instr} {r : Reg} :
    r ∈ sourcesOf i ↔ sourceA i = some r ∨ sourceB i = some r ∨ sourceStore i = some r := by
  cases i <;> simp [sourcesOf, sourceA, sourceB, sourceStore, eq_comm]

theorem stallOf_le_iff (s : State) (o : Option Reg) (n : Nat) :
    stallOf s o ≤ n ↔ ∀ r, o = some r → stallOf s (some r) ≤ n := by
  cases o <;> simp [stallOf]

/-- R96: the stall is the largest one that a source demands. -/
theorem stallNeeded_issueOf_le_iff (i : Instr) (w : Word) (s : State) (n : Nat) :
    stallNeeded (issueOf i w) s ≤ n ↔ ∀ r ∈ sourcesOf i, stallOf s (some r) ≤ n := by
  simp only [stallNeeded, issueOf, Nat.max_le, mem_sourcesOf_iff, stallOf_le_iff s (sourceA i),
    stallOf_le_iff s (sourceB i), stallOf_le_iff s (sourceStore i), or_imp, forall_and]

/-- The stall is `n` if a source demands `n` and none more. -/
theorem stallNeeded_issueOf_eq {i : Instr} {s : State} {n : Nat} (w : Word)
    (hle : ∀ r ∈ sourcesOf i, stallOf s (some r) ≤ n) (hex : ∃ r ∈ sourcesOf i, stallOf s (some r) = n) :
    stallNeeded (issueOf i w) s = n := by
  obtain ⟨r, hr, hn⟩ := hex
  exact le_antisymm ((stallNeeded_issueOf_le_iff i w s n).2 hle)
    (hn ▸ (stallNeeded_issueOf_le_iff i w s _).1 le_rfl r hr)

theorem stallNeeded_issueOf_eq_zero_iff (i : Instr) (w : Word) (s : State) :
    stallNeeded (issueOf i w) s = 0 ↔ ∀ r ∈ sourcesOf i, stallOf s (some r) = 0 := by
  simpa only [Nat.le_zero] using stallNeeded_issueOf_le_iff i w s 0

/-- Without an instruction in Execute or Memory that writes the source, it demands no stall. -/
theorem stallOf_of_not_produces {s : State} {r : Reg} (hx : ¬Produces s.exMem r) (hm : ¬Produces s.memWb r) :
    stallOf s (some r) = 0 := by
  rcases hazard_cases s r with ⟨hw, hr, -⟩ | ⟨-, hw, hr, -⟩ | ⟨-, -, h⟩
  · exact absurd ⟨hw, hr⟩ hx
  · exact absurd ⟨hw, hr⟩ hm
  · simp [stallOf, h]

section ForwardingDisabled
variable {s : State} {r : Reg} (hf : s.forwarding = false)
include hf

/-- R94, in the order of its table. -/
theorem stallOf_of_produces_exMem (hx : Produces s.exMem r) : stallOf s (some r) = 2 := by
  obtain ⟨hw, hr⟩ := hx
  simp [stallOf, hazard, hw, hr, hf]

theorem stallOf_of_produces_memWb (hx : ¬Produces s.exMem r) (hm : Produces s.memWb r) : stallOf s (some r) = 1 := by
  rcases hazard_cases s r with ⟨hw, hr, -⟩ | ⟨-, -, -, h⟩ | ⟨-, hno, -⟩
  · exact absurd ⟨hw, hr⟩ hx
  · simp [stallOf, h, hf]
  · exact absurd hm hno

theorem stallOf_le_one (hx : ¬Produces s.exMem r) : stallOf s (some r) ≤ 1 := by
  by_cases hm : Produces s.memWb r
  · exact (stallOf_of_produces_memWb hf hx hm).le
  · exact (stallOf_of_not_produces hx hm).trans_le (Nat.zero_le 1)

/-- Nothing is forwarded: the register file gives the value (R94). -/
theorem operandValue_of_forwarding_disabled : operandValue s r = readReg s.nxt.x r := by
  rcases operandValue_cases s r with ⟨h, -⟩ | ⟨h, -⟩ | ⟨-, -, hv⟩
  · rcases hazard_cases s r with ⟨-, -, h'⟩ | ⟨-, -, -, h'⟩ | ⟨-, -, h'⟩ <;> simp [h', hf] at h
  · rcases hazard_cases s r with ⟨-, -, h'⟩ | ⟨-, -, -, h'⟩ | ⟨-, -, h'⟩ <;> simp [h', hf] at h
  · exact hv

end ForwardingDisabled

section ForwardingEnabled
variable {s : State} {r : Reg} (hf : s.forwarding = true)
include hf

/-- R95: the only stall is that behind a load. -/
theorem stallOf_of_forwarding_enabled :
    stallOf s (some r) = 0 ∨ (stallOf s (some r) = 1 ∧ isLoadWord s.exMem.ir = true ∧ Produces s.exMem r) := by
  rcases hazard_cases s r with ⟨hw, hr, h⟩ | ⟨-, -, -, h⟩ | ⟨-, -, h⟩
  · cases hl : isLoadWord s.exMem.ir
    · exact .inl (by simp [stallOf, h, hf, hl])
    · exact .inr ⟨by simp [stallOf, h, hf, hl], rfl, hw, hr⟩
  · exact .inl (by simp [stallOf, h, hf])
  · exact .inl (by simp [stallOf, h])

theorem stallOf_behind_load (hx : Produces s.exMem r) (hl : isLoadWord s.exMem.ir = true) :
    stallOf s (some r) = 1 := by
  obtain ⟨hw, hr⟩ := hx
  simp [stallOf, hazard, hw, hr, hf, hl]

/-- R95, R97: a source that demands no stall comes from its youngest producer. -/
theorem operandValue_of_forwarding_enabled (hs : stallOf s (some r) = 0) : operandValue s r = forwardedValue s r := by
  rcases hazard_cases s r with ⟨hw, hr, h⟩ | ⟨hx, hw, hr, h⟩ | ⟨hx, hm, h⟩
  · cases hl : isLoadWord s.exMem.ir
    · simp [operandValue, forwardedValue, h, hf, hl, hw, hr]
    · simp [stallOf, h, hf, hl] at hs
  · rw [forwardedValue, if_neg hx, if_pos ⟨hw, hr⟩]
    simp [operandValue, memWbValue, h, hf]
  · rw [forwardedValue, if_neg hx, if_neg hm]
    simp [operandValue, h]

end ForwardingEnabled

/-! ### Decode with producers ahead (R94, R95) -/

/-- A stalling Decode, whatever `IF_ID` holds: the stall depends on the sources alone. -/
theorem exec_decode_of_stall {i : Instr} {s : State} {n : Nat} (hn : stallNeeded (issueOf i s.ifId.ir) s = n)
    (hpos : 0 < n) : exec i (s.at .decode) = .next { s with stage := .decode, stall := n, idEx := Latch.clear } := by
  have hissue : ∃ q, stallNeeded q (s.at .decode) = stallNeeded (issueOf i s.ifId.ir) s ∧
      exec i (s.at .decode) = .next (issue q (s.at .decode)) := by
    cases i with
    | nop =>
      have hnone : stallNeeded (issueOf .nop s.ifId.ir) s = 0 := rfl
      omega
    | _ => exact ⟨_, rfl, rfl⟩
  obtain ⟨q, hq, h⟩ := hissue
  rw [h, issue, hq, hn, if_pos hpos]
  rfl

theorem issuedFor_congr {i : Instr} {s : State} {v w : Reg → Word} (h : ∀ r ∈ sourcesOf i, v r = w r) :
    issuedFor i s v = issuedFor i s w := by
  have hfield (o : Option Reg) (ho : ∀ r, o = some r → r ∈ sourcesOf i) : fieldFrom v o = fieldFrom w o := by
    cases o with
    | none => rfl
    | some r => exact h r (ho r rfl)
  have ha := hfield (sourceA i) fun r hr => mem_sourcesOf_iff.2 (.inl hr)
  have hb := hfield (sourceB i) fun r hr => mem_sourcesOf_iff.2 (.inr (.inl hr))
  have hd := hfield (sourceStore i) fun r hr => mem_sourcesOf_iff.2 (.inr (.inr hr))
  simp only [issuedFor, ha, hb, hd]

/-- An issuing Decode, the sources having the values `v`. -/
theorem exec_decode_of_no_stall {i : Instr} {s : State} {v : Reg → Word} (hi : i ≠ .nop) (hw : s.ifId.ir = encode i)
    (hs : ∀ r ∈ sourcesOf i, stallOf s (some r) = 0) (hv : ∀ r ∈ sourcesOf i, operandValue s r = v r) :
    exec i (s.at .decode) = .next { s with stage := .decode, idEx := issuedFor i s v } := by
  have hn : stallNeeded (issueOf i s.ifId.ir) (s.at .decode) = 0 := (stallNeeded_issueOf_eq_zero_iff i _ s).2 hs
  have hlatch : issuedLatch (issueOf i s.ifId.ir) (s.at .decode) = issuedFor i s v :=
    (issuedLatch_issueOf i (s.at .decode)).trans (issuedFor_congr hv)
  rw [exec_decode_eq_issueOf hi hw, issue, hn, if_neg (lt_irrefl 0), hlatch]
  rfl

/-- Settles O51: with forwarding disabled a source demands 2, 1 or no stall cycles, and the register file gives its
value. -/
theorem stallsWithForwardingDisabled : Obligations.StallsWithForwardingDisabled := by
  unfold Obligations.StallsWithForwardingDisabled
  refine fun i s hf => ⟨fun ⟨r, hr, hx⟩ => ?_, fun hx ⟨r, hr, hm⟩ => ?_, fun hno hi hw => ?_⟩
  · exact exec_decode_of_stall (stallNeeded_issueOf_eq _ (fun q _ => stallOf_le s (some q))
      ⟨r, hr, stallOf_of_produces_exMem hf hx⟩) two_pos
  · exact exec_decode_of_stall (stallNeeded_issueOf_eq _ (fun q hq => stallOf_le_one hf (hx q hq))
      ⟨r, hr, stallOf_of_produces_memWb hf (hx r hr) hm⟩) one_pos
  · exact exec_decode_of_no_stall hi hw (fun r hr => stallOf_of_not_produces (hno r hr).1 (hno r hr).2)
      (fun r _ => operandValue_of_forwarding_disabled hf)

/-- Settles O52: with forwarding enabled only a load in `EX_MEM` makes a source stall, and any other source has the
value of its youngest producer. -/
theorem forwardsWithForwardingEnabled : Obligations.ForwardsWithForwardingEnabled := by
  unfold Obligations.ForwardsWithForwardingEnabled
  refine fun i s hf => ⟨fun ⟨r, hr, hx⟩ hl => ?_, fun hno hi hw => ?_⟩
  · have hle (q : Reg) (_ : q ∈ sourcesOf i) : stallOf s (some q) ≤ 1 := by
      rcases stallOf_of_forwarding_enabled (r := q) hf with h | ⟨h, -, -⟩ <;> omega
    exact exec_decode_of_stall (stallNeeded_issueOf_eq _ hle ⟨r, hr, stallOf_behind_load hf hx hl⟩) one_pos
  · have hs (r : Reg) (hr : r ∈ sourcesOf i) : stallOf s (some r) = 0 := by
      refine (stallOf_of_forwarding_enabled hf).resolve_right fun ⟨_, hl, hx⟩ => ?_
      rcases hno with hno | hno
      · exact hno r hr hx
      · simp [hl] at hno
    exact exec_decode_of_no_stall hi hw hs fun r hr => operandValue_of_forwarding_enabled hf (hs r hr)

/-! ### The Memory unit's store (R84, R190) -/

/-- Settles O43: a store's action in Memory is `MemWrite` at `ALUOutput`, and a read after it finds just those bytes. -/
theorem storeUnitWritesAtAluOutput : Obligations.StoreUnitWritesAtAluOutput := by
  unfold Obligations.StoreUnitWritesAtAluOutput
  intro rs rt offset s hm i n hin
  have hn : n ≤ 2 ^ 32 ∧ exec i (s.at .memory) = .next (memoryStore n (s.at .memory)) := by
    simp only [List.mem_cons, Prod.mk.injEq, List.not_mem_nil, or_false] at hin
    rcases hin with ⟨rfl, rfl⟩ | ⟨rfl, rfl⟩ | ⟨rfl, rfl⟩ <;> exact ⟨by norm_num, rfl⟩
  exact ⟨_, hn.2, rfl, fun a => byteRead_memWrite hm _ _ a hn.1⟩

/-! ### Fetch (R98 to R100) -/

/-- R93, R96: a stall demanded of Decode is demanded by a source that Execute or Memory writes. -/
theorem exists_producer_of_stallDemand_pos {s : State} (h : 0 < stallDemand s) :
    ∃ i, decode s.ifId.ir = .instr i ∧ ∃ r ∈ sourcesOf i, Produces s.exMem r ∨ Produces s.memWb r := by
  cases hd : decode s.ifId.ir with
  | unimplemented v => simp [stallDemand, hd] at h
  | instr i =>
    refine ⟨i, rfl, ?_⟩
    by_contra! hno
    have hzero : stallDemand s = 0 := by
      rw [stallDemand_of_decode hd, stallNeeded_issueOf_eq_zero_iff]
      exact fun r hr => stallOf_of_not_produces (hno r hr).1 (hno r hr).2
    omega

section Fetch
variable {u : State}

theorem fetchUnit_of_pending (h : u.branchPending = true) :
    fetchUnit u = (((u.setNxtPc u.branchTarget).setIfId Latch.clear).clearBranch).setStall 0 := if_pos h

theorem fetchUnit_of_stall (hb : u.branchPending = false) (hs : 0 < u.stall) :
    fetchUnit u = u.setStall (u.stall - 1) := by
  rw [fetchUnit, if_neg (by simp [hb]), if_pos hs]

theorem fetchUnit_of_ready (hb : u.branchPending = false) (hs : u.stall = 0) :
    fetchUnit u =
      (u.setIfId { Latch.clear with ir := fetchWord u u.cur.pc, pc := u.cur.pc }).setNxtPc (u.cur.pc + 4) := by
  rw [fetchUnit, if_neg (by simp [hb]), if_neg (by omega)]

end Fetch

/-- Decode and Fetch find the transfer that Execute has raised. -/
theorem beforeFetch_branchPending (s : State) : (beforeFetch s).branchPending = (executed s).branchPending := by
  rw [beforeFetch_eq, afterDecode_branchPending, executed_branchPending]

section Step
variable {s t : State} (hrun : s.halted = false) (hstep : step s = .next t)
include hrun hstep

/-- R98: a taken transfer redirects Fetch. -/
theorem fetch_of_taken (h : (executed s).branchPending = true) :
    t.ifId = Latch.clear ∧ t.cur.pc = (executed s).branchTarget ∧ t.branchPending = false ∧ t.stall = 0 := by
  have hb := (beforeFetch_branchPending s).trans h
  have ht : (beforeFetch s).branchTarget = (executed s).branchTarget := by
    rw [beforeFetch_eq, afterDecode_branchTarget, executed_branchTarget]
  simp [eq_commit_of_step hrun hstep, beforeCommit, fetchUnit_of_pending hb, ht]

/-- R99: a stall holds `IF_ID` and the PC. -/
theorem fetch_of_stall (hnxt : s.nxt = s.cur) (h : (executed s).branchPending = false)
    (hs : 0 < (beforeFetch s).stall) :
    t.ifId = s.ifId ∧ t.cur.pc = s.cur.pc ∧ t.stall = (beforeFetch s).stall - 1 := by
  have hb := (beforeFetch_branchPending s).trans h
  have hifId : (beforeFetch s).ifId = s.ifId := by simp [beforeFetch_eq]
  have hpc : (beforeFetch s).nxt.pc = s.cur.pc := by simp [beforeFetch_eq, hnxt]
  simp [eq_commit_of_step hrun hstep, beforeCommit, fetchUnit_of_stall hb hs, hifId, hpc]

/-- R100, R53: otherwise the next word is read, from memory as this cycle's store has left it. -/
theorem fetch_of_ready (h : (executed s).branchPending = false) (hs : (beforeFetch s).stall = 0) :
    t.ifId = { Latch.clear with ir := memRead32 t.params t.mem s.cur.pc, pc := s.cur.pc } ∧
    t.cur.pc = s.cur.pc + 4 ∧ t.stall = 0 := by
  have hb := (beforeFetch_branchPending s).trans h
  have hcur : (beforeFetch s).cur = s.cur := by simp [beforeFetch_eq]
  simp [eq_commit_of_step hrun hstep, beforeCommit, fetchUnit_of_ready hb hs, hs, hcur, fetchWord]

end Step

/-- Settles O13: the three cases of Fetch, its stall counter being the one Decode has left. -/
theorem fetchRedirectsHoldsOrReads : Obligations.FetchRedirectsHoldsOrReads := by
  unfold Obligations.FetchRedirectsHoldsOrReads
  intro s t hinv hrun hstep
  refine ⟨fetch_of_taken hrun hstep, fetch_of_stall hrun hstep hinv.1, fetch_of_ready hrun hstep, fun hs => ?_,
    fun hs hpos => ?_⟩
  · rw [beforeFetch_eq, afterDecode_of_blocked (.inr (by rwa [beforeDecode_stall]))]
    simp
  · rw [beforeFetch_eq] at hpos
    have hdemand := stallDemand_pos_of_afterDecode ((beforeDecode_stall s).trans hs) hpos
    obtain ⟨i, hd, r, hr, hx⟩ := exists_producer_of_stallDemand_pos hdemand
    simp only [beforeDecode_ifId, beforeDecode_exMem, beforeDecode_memWb] at hd hx
    exact ⟨i, hd, r, hr, hx⟩

end Sys2Proof.Proofs

namespace Sys2Proof.Proofs

open Sys2Proof Sys2Proof.Machine Sys2Proof.Statement

/-! ### The Execute functions and the "Architectural effect" lines (R121 to R176) -/

section ExecuteFunctions

theorem compareWord_eq (a b : Word) : compareWord a b = if a.slt b then 1 else 0 := by
  simp only [compareWord, BitVec.slt, decide_eq_true_eq]

theorem upperImm_zeroImm (imm : Half) : upperImm (zeroImm imm) = imm ++ 0#16 := by
  have happend := toNat_append_eq_add imm 0#16
  apply BitVec.eq_of_toNat_eq
  simp [upperImm, zeroImm, Nat.shiftLeft_eq] at happend ⊢
  omega

variable (a b : Word)

theorem signedProduct_eq : signedProduct a b = hiLoOf (a.signExtend 64 * b.signExtend 64) := by
  rw [signedProduct, BitVec.ofInt_mul]
  rfl

theorem unsignedProduct_eq : unsignedProduct a b = hiLoOf (a.zeroExtend 64 * b.zeroExtend 64) := by
  rw [unsignedProduct, BitVec.ofNat_mul, BitVec.ofNat_toNat, BitVec.ofNat_toNat]

variable {a b}

theorem signedQuotient_eq (p : Config.Params) (hb : b ≠ 0) (h : ¬(a = 0x80000000 ∧ b = 0xFFFFFFFF)) :
    signedQuotient p a b = some (a.srem b, a.sdiv b) := by
  have hrem : BitVec.ofInt 32 (a.toInt - a.toInt.tdiv b.toInt * b.toInt) = a.srem b := by
    rw [Int.mul_comm, ← Int.tmod_def, ← BitVec.toInt_srem, BitVec.ofInt_toInt]
  have hquot : BitVec.ofInt 32 (a.toInt.tdiv b.toInt) = a.sdiv b := by
    rw [← BitVec.toInt_inj, BitVec.toInt_ofInt, BitVec.toInt_sdiv]
  rw [signedQuotient, if_neg hb, if_neg h, hrem, hquot]

theorem unsignedQuotient_eq (hb : b ≠ 0) : unsignedQuotient a b = some (a % b, a / b) := by
  rw [unsignedQuotient, if_neg hb, BitVec.udiv_def, BitVec.umod_def]

variable (a)

theorem condLtz_eq : condLtz a = a.msb := BitVec.msb_eq_toInt.symm

theorem condGez_eq : condGez a = !a.msb := by
  simp only [condGez, BitVec.msb_eq_toInt, ← decide_not, not_lt]

theorem condLez_eq : condLez a = (a.msb || a == 0) := by
  have hzero : a = 0 ↔ a.toInt = 0 := by rw [← BitVec.toInt_inj]; rfl
  simp only [condLez, BitVec.msb_eq_toInt, beq_eq_decide, hzero, ← Bool.decide_or, le_iff_lt_or_eq]

theorem condGtz_eq : condGtz a = (!a.msb && a != 0) := by
  have hnot : condGtz a = !condLez a := by simp only [condGtz, condLez, ← decide_not, not_le]
  rw [hnot, condLez_eq, Bool.not_or]
  rfl

end ExecuteFunctions

end Sys2Proof.Proofs

namespace Sys2Proof.Proofs

open Sys2Proof Sys2Proof.Machine Sys2Proof.Statement

/-! ### An issued instruction, run to its end on a program-order state (R97, R102) -/

/-- What Execute, Memory and Writeback make of the program-order state `q` for the instruction in latch `l`; the program
counter of `q` is already the address behind the instruction. -/
def ranAlone (p : Config.Params) (l : Latch) (q : SeqState) : SeqState :=
  { arch :=
      { pc := (latchTransfer l).getD q.arch.pc,
        x := retired (loaded p q.mem (computed q.arch.hi q.arch.lo l)) q.arch.x,
        hi := (hiLoWritten p (q.arch.hi, q.arch.lo) l).1, lo := (hiLoWritten p (q.arch.hi, q.arch.lo) l).2 },
    mem := stored p q.mem (computed q.arch.hi q.arch.lo l) }

theorem ranAlone_clear (p : Config.Params) (q : SeqState) : ranAlone p Latch.clear q = q := rfl

/-- An unimplemented word has no effect (R212). -/
theorem ranAlone_unimplemented {p : Config.Params} {l : Latch} {w : Word} (q : SeqState)
    (hd : decode l.ir = .unimplemented w) (hw : l.regWrite = false) : ranAlone p l q = q := by
  simp [ranAlone, latchTransfer, hd, computed, loaded, retired, retires, hw, hiLoWritten, hiLoAfter, stored, storeSize,
    memWrite]

/-! #### By the tables of R75 and R90 -/

/-- R194 to R196: how many bytes the instruction stores. -/
def bytesStored : Instr → Nat
  | .sb _ _ _ => 1
  | .sh _ _ _ => 2
  | .sw _ _ _ => 4
  | _ => 0

section Decoded
variable {i : Instr} {l : Latch}

theorem storeSize_of_decode {w : Word} (hd : decode w = .instr i) : storeSize w = bytesStored i := by
  rw [storeSize, hd]
  cases i <;> rfl

theorem isLoadWord_of_decode {w : Word} (hd : decode w = .instr i) : isLoadWord w = isLoad i := by
  simp only [isLoadWord, hd]

/-- The latch names the destination that R75 gives `i`. -/
structure NamesDest (i : Instr) (l : Latch) : Prop where
  regWrite : l.regWrite = (destOf i).isSome
  registerRd : l.registerRd = (destOf i).getD 0

theorem issuedFor_namesDest (i : Instr) (s : State) (v : Reg → Word) : NamesDest i (issuedFor i s v) := ⟨rfl, rfl⟩

/-- Writeback of `i` writes the destination of R75, if there is one. -/
theorem retired_of_decode (hd : decode l.ir = .instr i) (hl : NamesDest i l) (x : Vector Word 32) :
    retired l x =
      (destOf i).elim x (fun r => writeReg x r (if isLoad i then l.lmd else l.aluOutput)) := by
  obtain ⟨hw, hr⟩ := hl
  rw [retired, retires, writtenValue, isLoadWord_of_decode hd, hd, hw, hr]
  cases i <;> rfl

end Decoded

/-- The instruction `i` in latch `l`, run to its end, by the functions and tables of `i`. -/
theorem ranAlone_of_decode {i : Instr} {l : Latch} (p : Config.Params) (hd : decode l.ir = .instr i)
    (hl : NamesDest i l) (q : SeqState) :
    let hiLo := hiLoAfter p (q.arch.hi, q.arch.lo) l (.instr i)
    let e := { l with aluOutput := aluOf q.arch.hi q.arch.lo l (.instr i) }
    let v := if isLoad i then lmdOf p q.mem e (.instr i) else e.aluOutput
    ranAlone p l q =
      { arch := { pc := (transferOf l i).getD q.arch.pc,
                  x := (destOf i).elim q.arch.x (fun r => writeReg q.arch.x r v), hi := hiLo.1, lo := hiLo.2 },
        mem := memWrite p q.mem e.aluOutput (bytesStored i) l.storeData } := by
  have hretired := retired_of_decode (l := loaded p q.mem (computed q.arch.hi q.arch.lo l)) hd
    ⟨hl.regWrite, hl.registerRd⟩ q.arch.x
  simp only [ranAlone, hretired, latchTransfer_of_decode hd]
  simp only [loaded, computed, hiLoWritten, stored, hd, storeSize_of_decode hd]

/-- The effect of a conditional branch, taken or not, as one record. -/
theorem branchIf_eq (q : SeqState) (cond : Bool) (offset : Half) :
    q.branchIf cond offset =
      { q with
        arch.pc := (if cond then some (q.arch.pc + (signImm offset <<< 2)) else none).getD (q.arch.pc + 4) } := by
  cases cond <;> rfl

/-- The effect of DIV, a zero divisor and the overflow included, as one record (R153). -/
theorem seqEffect_div (p : Config.Params) (rs rt rd shamt : Reg) (q : SeqState) :
    seqEffect p (.div rs rt rd shamt) q =
      (q.setHiLo ((signedQuotient p (q.reg rs) (q.reg rt)).getD (q.arch.hi, q.arch.lo))).advance := by
  by_cases hb : q.reg rt = 0
  · simp only [seqEffect, signedQuotient, if_pos hb]
    rfl
  by_cases hov : q.reg rs = 0x80000000 ∧ q.reg rt = 0xFFFFFFFF
  · simp only [seqEffect, signedQuotient, if_neg hb, if_pos hov]
    rfl
  · simp only [seqEffect, signedQuotient_eq p hb hov, if_neg hb, if_neg hov]
    rfl

/-- The effect of DIVU, a zero divisor included, as one record (R154). -/
theorem seqEffect_divu (p : Config.Params) (rs rt rd shamt : Reg) (q : SeqState) :
    seqEffect p (.divu rs rt rd shamt) q =
      (q.setHiLo ((unsignedQuotient (q.reg rs) (q.reg rt)).getD (q.arch.hi, q.arch.lo))).advance := by
  by_cases hb : q.reg rt = 0
  · simp only [seqEffect, unsignedQuotient, if_pos hb]
    rfl
  · simp only [seqEffect, unsignedQuotient_eq hb, if_neg hb]
    rfl

/-- Every instruction, run to its end from the latch Decode issues, has its "Architectural effect" (R103). -/
theorem ranAlone_latchFor {i : Instr} {s : State} (p : Config.Params) (hd : decode s.ifId.ir = .instr i)
    (q : SeqState) (hpc : s.ifId.pc = q.arch.pc) :
    ranAlone p (latchFor i s q.reg) q.advance = seqEffect p i q := by
  by_cases hi : i = .nop
  · subst hi
    exact ranAlone_clear p q.advance
  have hw := (encode_of_decode hd).symm
  rw [latchFor_of_ne_nop hi, ranAlone_of_decode p (l := issuedFor i s q.reg) hd (issuedFor_namesDest i s q.reg)]
  obtain ⟨⟨pc, x, hi, lo⟩, m⟩ := q
  obtain rfl : s.ifId.pc = pc := hpc
  cases i with
  | nop => contradiction
  | add | addu | sub | subu | and | or | xor | nor | mfhi | mflo | mthi | mtlo | syscall | jr | jalr => rfl
  | sll rs rt rd shamt | srl rs rt rd shamt | sra rs rt rd shamt =>
    obtain rfl : shamtField s.ifId.ir = shamt := hw ▸ shamtField_encodeR ..
    rfl
  | addi rs rt imm | addiu rs rt imm | andi rs rt imm | ori rs rt imm | xori rs rt imm | lb rs rt imm | lh rs rt imm
  | lw rs rt imm | sb rs rt imm | sh rs rt imm | sw rs rt imm =>
    obtain rfl : immField s.ifId.ir = imm := hw ▸ immField_encodeI ..
    rfl
  | slt =>
    simp only [seqEffect, ← compareWord_eq]
    rfl
  | slti rs rt imm =>
    obtain rfl : immField s.ifId.ir = imm := hw ▸ immField_encodeI ..
    simp only [seqEffect, ← compareWord_eq]
    rfl
  | lui rs rt imm =>
    obtain rfl : immField s.ifId.ir = imm := hw ▸ immField_encodeI ..
    simp only [seqEffect, ← upperImm_zeroImm]
    rfl
  | mult | multu =>
    simp only [hiLoAfter, signedProduct_eq, unsignedProduct_eq]
    rfl
  | div =>
    rw [seqEffect_div]
    rfl
  | divu =>
    rw [seqEffect_divu]
    rfl
  | beq rs rt offset | bne rs rt offset | blez rs rt offset | bgtz rs rt offset =>
    obtain rfl : immField s.ifId.ir = offset := hw ▸ immField_encodeI ..
    simp only [seqEffect, branchIf_eq, transferOf, condLez_eq, condGtz_eq]
    rfl
  | bltz rs offset | bgez rs offset =>
    obtain rfl : immField s.ifId.ir = offset := hw ▸ immField_encodeI ..
    simp only [seqEffect, branchIf_eq, transferOf, condLtz_eq, condGez_eq]
    rfl
  | j index | jal index =>
    obtain rfl : indexField s.ifId.ir = index := hw ▸ indexField_encodeJ ..
    rfl

end Sys2Proof.Proofs

namespace Sys2Proof.Proofs

open Sys2Proof Sys2Proof.Machine Sys2Proof.Statement

/-! ### The program-order state a pipeline state stands for (R97, R102) -/

/-- The instructions in `MEM_WB` and `EX_MEM` finish, the older first. -/
def finished (s : State) : State := afterWriteback (afterMemory (afterWriteback s))

/-- Draining is the first half of a cycle, then the end of the two instructions it leaves behind. -/
theorem drain_eq (s : State) : drain s = .next (finished (beforeDecode s)) := by
  simp only [drain, writebackUnit_eq, memoryUnit_eq, executeUnit_eq, Result.andThen_next, beforeDecode_eq]
  rfl

/-- The program-order state, `drain` being total. -/
def programState (s : State) : SeqState := programView s (finished (beforeDecode s))

theorem programState_eq_of_drain {s d : State} (h : drain s = .next d) : programView s d = programState s := by
  rw [programState, Host.Outcome.next.inj ((drain_eq s).symm.trans h)]

/-- The address of the instruction in `IF_ID`, or of the next fetch. -/
def nextPc (s : State) : Word := if s.ifId = Latch.clear then s.cur.pc else s.ifId.pc

section Finished
variable (s : State)

theorem finished_x : (finished s).nxt.x = retired (loaded s.params s.mem s.exMem) (retired s.memWb s.nxt.x) := rfl
theorem finished_hi : (finished s).nxt.hi = s.nxt.hi := rfl
theorem finished_lo : (finished s).nxt.lo = s.nxt.lo := rfl
theorem finished_mem : (finished s).mem = stored s.params s.mem s.exMem := rfl
theorem finished_params : (finished s).params = s.params := rfl
theorem finished_branchPending : (finished s).branchPending = s.branchPending := rfl
theorem finished_branchTarget : (finished s).branchTarget = s.branchTarget := rfl

end Finished

section ProgramState
variable (s : State)

/-- Its program counter is a pending transfer's target, or the address of the next instruction. -/
theorem programState_pc (hb : s.branchPending = false) :
    (programState s).arch.pc = (latchTransfer s.idEx).getD (nextPc s) := by
  simp only [programState, programView, finished_branchPending, finished_branchTarget, beforeDecode_branchPending,
    beforeDecode_branchTarget, hb, Bool.or_false, nextPc]
  cases latchTransfer s.idEx <;> rfl

theorem programState_x : (programState s).arch.x = (finished (beforeDecode s)).nxt.x := by
  simp only [programState, programView]

theorem programState_hi : (programState s).arch.hi = (beforeDecode s).nxt.hi := by
  simp only [programState, programView, finished_hi]

theorem programState_lo : (programState s).arch.lo = (beforeDecode s).nxt.lo := by
  simp only [programState, programView, finished_lo]

theorem programState_mem : (programState s).mem =
    stored (beforeDecode s).params (beforeDecode s).mem (beforeDecode s).exMem := by
  simp only [programState, programView, finished_mem]

end ProgramState

/-! ### The values Decode reads are those of the program-order state (R92, R93) -/

/-- What a register holds once the instruction in a well-formed latch has retired. -/
theorem readReg_retired {l : Latch} (hl : latchOk l = true) (x : Vector Word 32) (r : Reg) :
    readReg (retired l x) r = if l.regWrite = true ∧ l.registerRd = r then writtenValue l else readReg x r := by
  rw [retired, retires_of_latchOk hl]
  cases l.regWrite
  · simp
  · simp [readReg_writeReg, eq_comm]

@[simp] theorem loaded_regWrite (p : Config.Params) (m : Memory) (l : Latch) :
    (loaded p m l).regWrite = l.regWrite := rfl
@[simp] theorem loaded_registerRd (p : Config.Params) (m : Memory) (l : Latch) :
    (loaded p m l).registerRd = l.registerRd := rfl

/-- R97: a source that does not stall is read, or forwarded, with the value it has once the instructions ahead have
finished. -/
theorem operandValue_eq_finished {s : State} {r : Reg} (hx : latchOk s.exMem = true) (hm : latchOk s.memWb = true)
    (hs : stallOf s (some r) = 0) : operandValue s r = readReg (finished s).nxt.x r := by
  have hx' : latchOk (loaded s.params s.mem s.exMem) = true := memoryUnit_latchOk (memoryUnit_eq s) hx
  rw [finished_x, readReg_retired hx', readReg_retired hm, loaded_regWrite, loaded_registerRd]
  cases hf : s.forwarding with
  | false =>
    have hnox : ¬(s.exMem.regWrite = true ∧ s.exMem.registerRd = r) := fun h => by
      simp [stallOf_of_produces_exMem hf h] at hs
    have hnom : ¬(s.memWb.regWrite = true ∧ s.memWb.registerRd = r) := fun h => by
      simp [stallOf_of_produces_memWb hf hnox h] at hs
    rw [operandValue_of_forwarding_disabled hf, if_neg hnox, if_neg hnom]
  | true =>
    rw [operandValue_of_forwarding_enabled hf hs, forwardedValue]
    by_cases hp : s.exMem.regWrite = true ∧ s.exMem.registerRd = r
    · have hnoload : isLoadWord s.exMem.ir = false :=
        Bool.eq_false_iff.2 fun hl => by simp [stallOf_behind_load hf hp hl] at hs
      rw [if_pos hp, if_pos hp, writtenValue, loaded, hnoload]
      rfl
    · rw [if_neg hp, if_neg hp]
      rfl

/-! ### One cycle (R103) -/

theorem seqState_ext {q r : SeqState} (hpc : q.arch.pc = r.arch.pc) (hx : q.arch.x = r.arch.x)
    (hhi : q.arch.hi = r.arch.hi) (hlo : q.arch.lo = r.arch.lo) (hmem : q.mem = r.mem) : q = r := by
  obtain ⟨⟨pc, x, hi, lo⟩, m⟩ := q
  obtain ⟨⟨pc', x', hi', lo'⟩, m'⟩ := r
  subst hpc hx hhi hlo hmem
  rfl

section FetchKeeps
variable (s : State)

@[simp] theorem fetchUnit_nxt_x : (fetchUnit s).nxt.x = s.nxt.x :=
  (congrArg (fun t => t.nxt.x) (fetchUnit_writes s).1 :)
@[simp] theorem fetchUnit_nxt_hi : (fetchUnit s).nxt.hi = s.nxt.hi :=
  (congrArg (fun t => t.nxt.hi) (fetchUnit_writes s).1 :)
@[simp] theorem fetchUnit_nxt_lo : (fetchUnit s).nxt.lo = s.nxt.lo :=
  (congrArg (fun t => t.nxt.lo) (fetchUnit_writes s).1 :)

end FetchKeeps

/-- After a cycle the program-order state is the one before it, with the instruction that has just issued run to its end
on it. -/
theorem programState_step {s t : State} (ht : t = (beforeCommit s).commit) :
    programState t = ranAlone s.params t.idEx ((programState s).goto (nextPc t)) := by
  have hb : t.branchPending = false := by simp [ht, beforeCommit]
  have hp : t.params = s.params := by simp [ht, beforeCommit, beforeFetch_eq]
  have hm : t.mem = (beforeDecode s).mem := by simp [ht, beforeCommit, beforeFetch_eq]
  have hw : t.memWb = (beforeDecode s).memWb := by simp [ht, beforeCommit, beforeFetch_eq]
  have he : t.exMem = (beforeDecode s).exMem := by simp [ht, beforeCommit, beforeFetch_eq]
  have hcur : t.cur = t.nxt := by rw [ht]; rfl
  have hx : t.nxt.x = (beforeDecode s).nxt.x := by
    simp only [ht, beforeCommit, beforeFetch_eq, State.commit_nxt, fetchUnit_nxt_x, afterDecode_nxt]
  have hhi : t.nxt.hi = (beforeDecode s).nxt.hi := by
    simp only [ht, beforeCommit, beforeFetch_eq, State.commit_nxt, fetchUnit_nxt_hi, afterDecode_nxt]
  have hlo : t.nxt.lo = (beforeDecode s).nxt.lo := by
    simp only [ht, beforeCommit, beforeFetch_eq, State.commit_nxt, fetchUnit_nxt_lo, afterDecode_nxt]
  have hbp : (beforeDecode s).params = s.params := beforeDecode_params s
  have hprog : (programState s).mem = stored s.params t.mem t.exMem ∧ (programState s).arch.hi = t.nxt.hi ∧
      (programState s).arch.lo = t.nxt.lo ∧
      (programState s).arch.x = retired (loaded s.params t.mem t.exMem) (retired t.memWb t.nxt.x) := by
    rw [programState_mem, programState_hi, programState_lo, programState_x, finished_x, hm, he, hw, hx, hhi, hlo, hbp]
    exact ⟨rfl, rfl, rfl, rfl⟩
  obtain ⟨hmem, hphi, hplo, hpx⟩ := hprog
  apply seqState_ext
  · rw [programState_pc t hb]
    rfl
  · rw [programState_x, finished_x]
    simp [ranAlone, SeqState.goto, hmem, hphi, hplo, hpx, hcur, hp]
  · rw [programState_hi]
    simp [ranAlone, SeqState.goto, hphi, hplo, hp]
  · rw [programState_lo]
    simp [ranAlone, SeqState.goto, hphi, hplo, hp]
  · rw [programState_mem]
    simp [ranAlone, SeqState.goto, hmem, hphi, hplo, hcur, hp]

/-- An issued word, run to its end, is a step of the sequential machine that stands at it. -/
theorem ranAlone_issued_eq_seqStep {p : Config.Params} {u : State} {q : SeqState}
    (hword : memRead32 p q.mem q.arch.pc = u.ifId.ir) (hpc : u.ifId.pc = q.arch.pc)
    (hv : ∀ i, decode u.ifId.ir = .instr i → ∀ r ∈ sourcesOf i, operandValue u r = q.reg r) :
    ranAlone p (issued u) q.advance = seqStep p q := by
  cases hd : decode u.ifId.ir with
  | unimplemented w =>
    have hissued : issued u = issuedLatch (plainIssue u.ifId.ir) u := by simp only [issued, hd]
    have hseq : seqStep p q = q.advance := by simp only [seqStep, SeqState.current, hword, hd]
    rw [hissued, hseq, ranAlone_unimplemented (l := issuedLatch _ u) _ hd rfl]
  | instr i =>
    have hseq : seqStep p q = seqEffect p i q := by simp only [seqStep, SeqState.current, hword, hd]
    have hissued : issued u = latchFor i u q.reg := by
      rw [issued_of_decode hd, latchFor, latchFor, issuedFor_congr (hv i hd)]
    rw [hissued, hseq, ranAlone_latchFor p hd q hpc]

/-- A cycle that sends a bubble on, or issues nothing, leaves the program where it is. -/
theorem programState_of_bubble {s t : State} (ht : t = (beforeCommit s).commit) (hidEx : t.idEx = Latch.clear)
    (hpc : nextPc t = (programState s).arch.pc) : programState t = programState s := by
  rw [programState_step ht, hidEx, ranAlone_clear, hpc]
  rfl

theorem goto_eq_advance {q : SeqState} {v : Word} (h : v = q.arch.pc + 4) : q.goto v = q.advance := by
  rw [SeqState.advance, h]

/-- The instructions ahead of Decode are in well-formed latches. -/
theorem beforeDecode_latchOk {s : State} (hinv : PipelineInv s) :
    latchOk (beforeDecode s).exMem = true ∧ latchOk (beforeDecode s).memWb = true := by
  have hr : ReachesDecode s (beforeDecode s) := by
    rw [beforeDecode_eq]
    exact reachesDecode_of_units (writebackUnit_eq s) (memoryUnit_eq _) (executeUnit_eq _)
  have hready := decodeReady_of_pipelineInv hinv hr
  exact ⟨hready.exMemOk, hready.memWbOk⟩

theorem issued_of_bubble {s : State} (h : s.ifId = Latch.clear) : issued s = Latch.clear := by
  have hd : decode s.ifId.ir = .instr .nop := by rw [h]; rfl
  rw [issued_of_decode hd, latchFor_nop]

/-- The values Decode reads in this cycle are those of the program-order state. -/
theorem operandValue_eq_programState {s : State} {i : Instr} (hinv : PipelineInv s) (hd : decode s.ifId.ir = .instr i)
    (hs : stallDemand (beforeDecode s) = 0) {r : Reg} (hr : r ∈ sourcesOf i) :
    operandValue (beforeDecode s) r = (programState s).reg r := by
  obtain ⟨hx, hm⟩ := beforeDecode_latchOk hinv
  have hd' : decode (beforeDecode s).ifId.ir = .instr i := by rwa [beforeDecode_ifId]
  rw [stallDemand_of_decode hd', stallNeeded_issueOf_eq_zero_iff] at hs
  rw [operandValue_eq_finished hx hm (hs r hr), SeqState.reg, programState_x]

/-- A cycle that fetches: Decode has found a bubble, or it has issued the next instruction in program order. -/
theorem programState_of_fetch {s t : State} (hinv : PipelineInv s) (hpc0 : s.cur.pc ≠ 0)
    (ht : t = (beforeCommit s).commit) (hidEx : t.idEx = issued (beforeDecode s)) (hifId : t.ifId.pc = s.cur.pc)
    (hs : stallDemand (beforeDecode s) = 0) (hpc : (programState s).arch.pc = nextPc s)
    (hcoh : s.ifId = Latch.clear ∨ memRead32 s.params (programState s).mem s.ifId.pc = s.ifId.ir) :
    programState t = programState s ∨ programState t = seqStep s.params (programState s) := by
  obtain ⟨-, -, -, -, -, -, -, -, -, -, -, hahead, -⟩ := id hinv
  have hnext : nextPc t = s.cur.pc := by
    rw [nextPc, hifId, if_neg fun h => hpc0 (hifId.symm.trans (congrArg Latch.pc h))]
  by_cases hclear : s.ifId = Latch.clear
  · refine .inl (programState_of_bubble ht ?_ ?_)
    · rw [hidEx, issued_of_bubble (by rwa [beforeDecode_ifId])]
    · rw [hnext, hpc, nextPc, if_pos hclear]
  · refine .inr ?_
    rw [nextPc, if_neg hclear] at hpc
    have hadvance : s.cur.pc = (programState s).arch.pc + 4 := by rw [hpc]; exact hahead.resolve_left hclear
    have hword := hcoh.resolve_left hclear
    rw [programState_step ht, hidEx, hnext, goto_eq_advance hadvance]
    refine ranAlone_issued_eq_seqStep (by rw [hpc, hword, beforeDecode_ifId]) (by rw [hpc, beforeDecode_ifId]) ?_
    intro i hd r hr
    exact operandValue_eq_programState hinv (by rwa [beforeDecode_ifId] at hd) hs hr

/-- R103, one cycle. -/
theorem programState_refines {s t : State} (hinv : PipelineInv s) (hrun : s.halted = false) (hpc0 : s.cur.pc ≠ 0)
    (hstep : step s = .next t)
    (hcoh : s.ifId = Latch.clear ∨ memRead32 s.params (programState s).mem s.ifId.pc = s.ifId.ir) :
    programState t = programState s ∨ programState t = seqStep s.params (programState s) := by
  have ht := eq_commit_of_step hrun hstep
  have hidEx : t.idEx = (afterDecode (beforeDecode s)).idEx := by simp [ht, beforeCommit, beforeFetch_eq]
  obtain ⟨hnxt, hpending, -⟩ := id hinv
  have hb : (executed s).branchPending = (latchTransfer s.idEx).isSome := by
    rw [executed_branchPending, beforeDecode_branchPending, hpending, Bool.or_false]
  have hpc := programState_pc s hpending
  cases htransfer : latchTransfer s.idEx with
  | some target =>
    rw [htransfer] at hb hpc
    obtain ⟨hifId, hcur, -, -⟩ := fetch_of_taken hrun hstep hb
    refine .inl (programState_of_bubble ht ?_ ?_)
    · rw [hidEx, afterDecode_idEx_of_blocked (.inl (by rw [← executed_branchPending, hb]; rfl))]
    · rw [hpc, nextPc, if_pos hifId, hcur, executed_branchTarget, beforeDecode_branchTarget, htransfer]
      rfl
  | none =>
    rw [htransfer] at hb hpc
    rcases Nat.eq_zero_or_pos (beforeFetch s).stall with hs | hs
    · obtain ⟨hifId, -, -⟩ := fetch_of_ready hrun hstep hb hs
      rw [executed_branchPending] at hb
      rw [beforeFetch_eq] at hs
      obtain ⟨hissued, -, hdemand⟩ := afterDecode_idEx_of_ready hb hs
      exact programState_of_fetch hinv hpc0 ht (hidEx.trans hissued) (congrArg Latch.pc hifId) hdemand hpc hcoh
    · obtain ⟨hifId, hcur, -⟩ := fetch_of_stall hrun hstep hnxt hb hs
      refine .inl (programState_of_bubble ht ?_ ?_)
      · rw [hidEx, afterDecode_idEx_of_blocked (.inr (by rwa [← beforeFetch_eq]))]
      · rw [hpc, nextPc, hifId, hcur]
        rfl

/-- The premise of R53 in the terms of the program-order state. -/
theorem coherent_of_fetchCoherent {s d : State} (hd : drain s = .next d) (h : FetchCoherent s d) :
    s.ifId = Latch.clear ∨ memRead32 s.params (programState s).mem s.ifId.pc = s.ifId.ir := by
  obtain rfl := Host.Outcome.next.inj ((drain_eq s).symm.trans hd)
  rw [FetchCoherent, finished_params, beforeDecode_params, finished_mem, ← programState_mem] at h
  exact h

/-- Settles O22: a taken transfer, a stall and a bubble leave the program where it is; an instruction that issues reads
its operands as the sequential machine does, and run to its end it has its "Architectural effect". -/
theorem cycleRefinesSequentialMachine : Obligations.CycleRefinesSequentialMachine := by
  unfold Obligations.CycleRefinesSequentialMachine
  intro s t ds dt hinv hrun hpc0 hstep hds hdt hcoh
  rw [programState_eq_of_drain hds, programState_eq_of_drain hdt]
  exact programState_refines hinv hrun hpc0 hstep (coherent_of_fetchCoherent hds hcoh)

/-! ### Runs (R103) -/

theorem steps_zero (s : State) : steps 0 s = .next s := rfl

theorem run_succ_of_step {M : Host.Core} {n : Nat} {s s' : M.State} (h : M.step s = .next s') :
    M.run (n + 1) s = M.run n s' := by
  simp only [Host.Core.run, h]

theorem steps_succ_of_step {n : Nat} {s s' : State} (h : step s = .next s') : steps (n + 1) s = steps n s' :=
  run_succ_of_step (M := Sys2Proof.core) h

/-- Every step answers a next state (R220). -/
theorem exists_step (s : State) : ∃ t, step s = .next t := by
  cases h : s.halted with
  | true => exact ⟨s, step_of_halted h⟩
  | false => exact ⟨_, step_eq_commit h⟩

theorem step_params {s t : State} (h : step s = .next t) : t.params = s.params := by
  refine step_keeps_of_cycle_keeps (P := fun u => u.params = s.params) (fun u v hrun hu hv => ?_) rfl h
  obtain ⟨-, -, -, -, hparams⟩ := cycleEndsWithCommit u v hrun hv
  exact hparams.trans hu

/-- A step, whether it is a cycle or that of a halted core, is at most one step of the sequential machine. -/
theorem programState_step_refines {s t : State} (hinv : PipelineInv s) (hpc0 : s.cur.pc ≠ 0) (hstep : step s = .next t)
    (hcoh : s.ifId = Latch.clear ∨ memRead32 s.params (programState s).mem s.ifId.pc = s.ifId.ir) :
    ∃ k ≤ 1, programState t = seqSteps s.params k (programState s) := by
  cases hrun : s.halted with
  | true =>
    have hst : s = t := Host.Outcome.next.inj ((step_of_halted hrun).symm.trans hstep)
    exact ⟨0, Nat.zero_le 1, hst ▸ rfl⟩
  | false =>
    rcases programState_refines hinv hrun hpc0 hstep hcoh with h | h
    · exact ⟨0, Nat.zero_le 1, h⟩
    · exact ⟨1, le_rfl, h⟩

theorem seqSteps_add (p : Config.Params) (k m : Nat) (q : SeqState) :
    seqSteps p (k + m) q = seqSteps p m (seqSteps p k q) := by
  induction k generalizing q with
  | zero => rw [Nat.zero_add]; rfl
  | succ k ih => rw [Nat.succ_add]; exact ih _

/-- The premises of a run, asked of every state it passes. -/
def CoherentFor (n : Nat) (s : State) : Prop :=
  ∀ m u du, m < n → steps m s = .next u → drain u = .next du → u.cur.pc ≠ 0 ∧ FetchCoherent u du

theorem CoherentFor.tail {n : Nat} {s s' : State} (h : CoherentFor (n + 1) s) (hstep : step s = .next s') :
    CoherentFor n s' := by
  intro m u du hm hu hdu
  exact h (m + 1) u du (Nat.succ_lt_succ hm) ((steps_succ_of_step hstep).trans hu) hdu

theorem programState_steps_refines {n : Nat} {s t : State} (hinv : PipelineInv s) (hcoh : CoherentFor n s)
    (hrun : steps n s = .next t) : ∃ k ≤ n, programState t = seqSteps s.params k (programState s) := by
  induction n generalizing s with
  | zero =>
    have hst : s = t := Host.Outcome.next.inj hrun
    exact ⟨0, le_rfl, hst ▸ rfl⟩
  | succ n ih =>
    obtain ⟨s', hstep⟩ := exists_step s
    obtain ⟨hpc0, hfetch⟩ := hcoh 0 s _ (Nat.succ_pos n) (steps_zero s) (drain_eq s)
    obtain ⟨j, hj, hfirst⟩ := programState_step_refines hinv hpc0 hstep (coherent_of_fetchCoherent (drain_eq s) hfetch)
    obtain ⟨k, hk, hrest⟩ := ih (everyStepKeepsPipelineInvariant s s' hinv hstep) (hcoh.tail hstep)
      ((steps_succ_of_step hstep).symm.trans hrun)
    refine ⟨j + k, by omega, ?_⟩
    rw [hrest, hfirst, step_params hstep, seqSteps_add]

/-- Settles O23: by induction on the cycles, each of which is at most one step of the sequential machine. -/
theorem runRefinesSequentialMachine : Obligations.RunRefinesSequentialMachine := by
  unfold Obligations.RunRefinesSequentialMachine
  intro n s t ds dt hinv hcoh hrun hds hdt
  rw [programState_eq_of_drain hds, programState_eq_of_drain hdt]
  exact programState_steps_refines hinv hcoh hrun

end Sys2Proof.Proofs

namespace Sys2Proof.Proofs

open Sys2Proof Sys2Proof.Machine Sys2Proof.Statement

/-! ### One instruction from an empty pipe (R103, R210) -/

theorem exists_step_of_steps_succ {n : Nat} {s t : State} (h : steps (n + 1) s = .next t) :
    ∃ s', step s = .next s' ∧ steps n s' = .next t := by
  obtain ⟨s', hstep⟩ := exists_step s
  exact ⟨s', hstep, (steps_succ_of_step hstep).symm.trans h⟩

/-! #### A bubble in a unit -/

theorem retired_clear (x : Vector Word 32) : retired Latch.clear x = x := rfl
theorem haltsFrom_clear (x : Vector Word 32) : haltsFrom Latch.clear x = false := rfl
theorem loaded_clear (p : Config.Params) (m : Memory) : loaded p m Latch.clear = Latch.clear := rfl
theorem stored_clear (p : Config.Params) (m : Memory) : stored p m Latch.clear = m := rfl
theorem computed_clear (hi lo : Word) : computed hi lo Latch.clear = Latch.clear := rfl
theorem hiLoWritten_clear (p : Config.Params) (hiLo : Word × Word) : hiLoWritten p hiLo Latch.clear = hiLo := rfl
theorem latchTransfer_clear : latchTransfer Latch.clear = none := rfl

/-! #### One cycle -/

/-- What a cycle makes of the registers, memory and the latches behind Decode. -/
structure MovesOn (s t : State) : Prop where
  nxt : t.nxt = t.cur
  x : t.cur.x = retired s.memWb s.cur.x
  hi : t.cur.hi = (hiLoWritten s.params (s.cur.hi, s.cur.lo) s.idEx).1
  lo : t.cur.lo = (hiLoWritten s.params (s.cur.hi, s.cur.lo) s.idEx).2
  memWb : t.memWb = loaded s.params s.mem s.exMem
  exMem : t.exMem = computed s.cur.hi s.cur.lo s.idEx
  mem : t.mem = stored s.params s.mem s.exMem
  halted : t.halted = haltsFrom s.memWb s.cur.x
  branchPending : t.branchPending = false
  params : t.params = s.params

theorem movesOn_of_step {s t : State} (hrun : s.halted = false) (hnxt : s.nxt = s.cur) (hstep : step s = .next t) :
    MovesOn s t := by
  obtain rfl := eq_commit_of_step hrun hstep
  constructor <;> simp [beforeCommit, beforeFetch_eq, hnxt, hrun]

/-- A bubble or a NOP in `IF_ID` becomes a bubble, whether or not Decode is flushed or stalled. -/
theorem afterDecode_idEx_of_nop {s : State} (h : s.ifId.ir = 0) : (afterDecode s).idEx = Latch.clear := by
  unfold afterDecode
  split
  · rfl
  · rw [afterIssue_of_nop h]
    rfl

theorem idEx_of_step_of_nop {s t : State} (hrun : s.halted = false) (hstep : step s = .next t) (h : s.ifId.ir = 0) :
    t.idEx = Latch.clear := by
  have hidEx : t.idEx = (afterDecode (beforeDecode s)).idEx := by
    simp [eq_commit_of_step hrun hstep, beforeCommit, beforeFetch_eq]
  rw [hidEx, afterDecode_idEx_of_nop (by rwa [beforeDecode_ifId])]

/-- With a NOP word at the fetch address a cycle leaves a NOP or a bubble in `IF_ID`, if it finds one there. -/
theorem ifId_of_step_of_nop {s t : State} (hrun : s.halted = false) (hnxt : s.nxt = s.cur) (hstep : step s = .next t)
    (h : s.ifId.ir = 0) (hword : memRead32 t.params t.mem s.cur.pc = 0) : t.ifId.ir = 0 := by
  cases hb : (executed s).branchPending with
  | true => rw [(fetch_of_taken hrun hstep hb).1]; rfl
  | false =>
    rcases Nat.eq_zero_or_pos (beforeFetch s).stall with hs | hs
    · rw [(fetch_of_ready hrun hstep hb hs).1, hword]
    · rw [(fetch_of_stall hrun hstep hnxt hb hs).1, h]

/-! #### Nothing issued yet -/

/-- Nothing has issued: no instruction behind Decode, no stall, no transfer, no halt. -/
structure NothingIssued (s : State) : Prop where
  nxt : s.nxt = s.cur
  idEx : s.idEx = Latch.clear
  exMem : s.exMem = Latch.clear
  memWb : s.memWb = Latch.clear
  branchPending : s.branchPending = false
  stall : s.stall = 0
  halted : s.halted = false

/-- A cycle that finds nothing issued: the word in `IF_ID` issues, the next one is fetched, nothing else happens. -/
structure Issues (s t : State) : Prop where
  nxt : t.nxt = t.cur
  cur : t.cur = { s.cur with pc := s.cur.pc + 4 }
  idEx : t.idEx = issued (beforeDecode s)
  exMem : t.exMem = Latch.clear
  memWb : t.memWb = Latch.clear
  ifId : t.ifId = { Latch.clear with ir := memRead32 s.params s.mem s.cur.pc, pc := s.cur.pc }
  mem : t.mem = s.mem
  params : t.params = s.params
  branchPending : t.branchPending = false
  stall : t.stall = 0
  halted : t.halted = false

theorem noProducer_of_nothingIssued {s : State} (h : NothingIssued s) : NoProducer (beforeDecode s) := by
  rw [NoProducer, beforeDecode_exMem, beforeDecode_memWb, h.idEx, h.exMem]
  exact ⟨rfl, rfl⟩

theorem stallDemand_of_noProducer {s : State} (h : NoProducer s) : stallDemand s = 0 := by
  obtain ⟨hx, hm⟩ := h
  by_contra hd
  obtain ⟨i, -, r, -, ⟨hw, -⟩ | ⟨hw, -⟩⟩ := exists_producer_of_stallDemand_pos (Nat.pos_of_ne_zero hd)
  · simp [hx] at hw
  · simp [hm] at hw

theorem arch_ext {a b : Arch} (hpc : a.pc = b.pc) (hx : a.x = b.x) (hhi : a.hi = b.hi) (hlo : a.lo = b.lo) : a = b := by
  obtain ⟨pc, x, hi, lo⟩ := a
  subst hpc hx hhi hlo
  rfl

theorem issues_of_nothingIssued {s t : State} (h : NothingIssued s) (hstep : step s = .next t) : Issues s t := by
  have hm := movesOn_of_step h.halted h.nxt hstep
  have hb : (beforeDecode s).branchPending = false := by
    rw [beforeDecode_branchPending, h.idEx, latchTransfer_clear, h.branchPending]
    rfl
  have hs : (afterDecode (beforeDecode s)).stall = 0 := by
    by_contra hpos
    have hdemand := stallDemand_pos_of_afterDecode ((beforeDecode_stall s).trans h.stall) (Nat.pos_of_ne_zero hpos)
    exact hdemand.ne' (stallDemand_of_noProducer (noProducer_of_nothingIssued h))
  obtain ⟨hidEx, -, -⟩ := afterDecode_idEx_of_ready hb hs
  obtain ⟨hifId, hpc, hstall⟩ := fetch_of_ready h.halted hstep ((executed_branchPending s).trans hb)
    (by rwa [beforeFetch_eq])
  have hmem : t.mem = s.mem := by rw [hm.mem, h.exMem, stored_clear]
  exact {
    nxt := hm.nxt
    cur := arch_ext hpc (by rw [hm.x, h.memWb, retired_clear]) (by rw [hm.hi, h.idEx, hiLoWritten_clear])
      (by rw [hm.lo, h.idEx, hiLoWritten_clear])
    idEx := by
      rw [← hidEx]
      simp [eq_commit_of_step h.halted hstep, beforeCommit, beforeFetch_eq]
    exMem := by rw [hm.exMem, h.idEx, computed_clear]
    memWb := by rw [hm.memWb, h.exMem, loaded_clear]
    ifId := by rw [hifId, hm.params, hmem]
    mem := hmem
    params := hm.params
    branchPending := hm.branchPending
    stall := hstall
    halted := by rw [hm.halted, h.memWb, haltsFrom_clear] }

/-- Still nothing has issued after a cycle that found a bubble in `IF_ID`. -/
theorem nothingIssued_of_bubble {s t : State} (h : Issues s t) (hifId : s.ifId = Latch.clear) : NothingIssued t where
  nxt := h.nxt
  idEx := by rw [h.idEx, issued_of_bubble (by rwa [beforeDecode_ifId])]
  exMem := h.exMem
  memWb := h.memWb
  branchPending := h.branchPending
  stall := h.stall
  halted := h.halted

/-- The instruction in `IF_ID` issues with the values of the register file. -/
theorem issued_of_nothingIssued {s : State} {i : Instr} (h : NothingIssued s) (hd : decode s.ifId.ir = .instr i) :
    issued (beforeDecode s) = latchFor i (beforeDecode s) (readReg s.cur.x) := by
  have hx : (beforeDecode s).nxt.x = s.cur.x := by rw [beforeDecode_nxt, h.memWb, retired_clear, h.nxt]
  rw [issued_of_decode (by rwa [beforeDecode_ifId]), operandValue_of_noProducer (noProducer_of_nothingIssued h), hx]

/-! #### One instruction issued -/

/-- Three cycles later the one instruction behind Decode has run to its end: the two words behind it are NOPs, and what
is fetched after them does not get as far as Execute. -/
theorem ranAlone_of_steps {s t : State} (hnxt : s.nxt = s.cur) (hexMem : s.exMem = Latch.clear)
    (hmemWb : s.memWb = Latch.clear) (hrun : s.halted = false) (hifId : s.ifId.ir = 0)
    (hword : memRead32 s.params s.mem s.cur.pc = 0) (hsteps : steps 3 s = .next t) :
    let q := ranAlone s.params s.idEx { arch := s.cur, mem := s.mem }
    t.cur.x = q.arch.x ∧ t.cur.hi = q.arch.hi ∧ t.cur.lo = q.arch.lo ∧ t.mem = q.mem ∧
      t.halted = haltsFrom s.idEx s.cur.x := by
  obtain ⟨s1, hstep1, hsteps1⟩ := exists_step_of_steps_succ hsteps
  obtain ⟨s2, hstep2, hsteps2⟩ := exists_step_of_steps_succ hsteps1
  obtain ⟨s3, hstep3, hsteps3⟩ := exists_step_of_steps_succ hsteps2
  obtain rfl : s3 = t := Host.Outcome.next.inj hsteps3
  have m1 := movesOn_of_step hrun hnxt hstep1
  have hidEx1 := idEx_of_step_of_nop hrun hstep1 hifId
  have hmem1 : s1.mem = s.mem := by rw [m1.mem, hexMem, stored_clear]
  have hmemWb1 : s1.memWb = Latch.clear := by rw [m1.memWb, hexMem, loaded_clear]
  have hrun1 : s1.halted = false := by rw [m1.halted, hmemWb, haltsFrom_clear]
  have hifId1 : s1.ifId.ir = 0 := ifId_of_step_of_nop hrun hnxt hstep1 hifId (by rw [m1.params, hmem1, hword])
  have m2 := movesOn_of_step hrun1 m1.nxt hstep2
  have hidEx2 := idEx_of_step_of_nop hrun1 hstep2 hifId1
  have hexMem2 : s2.exMem = Latch.clear := by rw [m2.exMem, hidEx1, computed_clear]
  have hrun2 : s2.halted = false := by rw [m2.halted, hmemWb1, haltsFrom_clear]
  have m3 := movesOn_of_step hrun2 m2.nxt hstep3
  have hx1 : s1.cur.x = s.cur.x := by rw [m1.x, hmemWb, retired_clear]
  have hx2 : s2.cur.x = s.cur.x := by rw [m2.x, hmemWb1, retired_clear, hx1]
  have hhi : s3.cur.hi = s1.cur.hi := by rw [m3.hi, hidEx2, hiLoWritten_clear, m2.hi, hidEx1, hiLoWritten_clear]
  have hlo : s3.cur.lo = s1.cur.lo := by rw [m3.lo, hidEx2, hiLoWritten_clear, m2.lo, hidEx1, hiLoWritten_clear]
  have hmemWb2 : s2.memWb = loaded s.params s.mem (computed s.cur.hi s.cur.lo s.idEx) := by
    rw [m2.memWb, m1.params, hmem1, m1.exMem]
  refine ⟨?_, ?_, ?_, ?_, ?_⟩
  · rw [m3.x, hx2, hmemWb2]
    rfl
  · rw [hhi, m1.hi]
    rfl
  · rw [hlo, m1.lo]
    rfl
  · rw [m3.mem, hexMem2, stored_clear, m2.mem, m1.params, hmem1, m1.exMem]
    rfl
  · rw [m3.halted, hx2, hmemWb2]
    rfl

/-- R210: the latch issued for the current instruction halts the machine exactly if the sequential machine halts. -/
theorem haltsFrom_latchFor {p : Config.Params} {q : SeqState} {i : Instr} {s : State} (v : Reg → Word)
    (hcurrent : q.current p = .instr i) (hd : decode s.ifId.ir = .instr i) :
    haltsFrom (latchFor i s v) q.arch.x = seqHalts p q := by
  by_cases hi : i = .nop
  · rw [hi, latchFor_nop, haltsFrom_clear, seqHalts, hcurrent, hi]
  · have hir : (issuedFor i s v).ir = s.ifId.ir := rfl
    rw [latchFor_of_ne_nop hi, haltsFrom, hir, hd, seqHalts, hcurrent]
    cases i <;> rfl

/-- Settles O24: two cycles fetch the instruction and issue it on an empty pipe, three more run it to its end, which is
its "Architectural effect". -/
theorem singleInstructionMatchesDirectEvaluation : Obligations.SingleInstructionMatchesDirectEvaluation := by
  unfold Obligations.SingleInstructionMatchesDirectEvaluation
  intro s t i hquiet hword hnop4 hnop8 hsteps
  obtain ⟨hnxt, hifId, hidEx, hexMem, hmemWb, hb, hs, hrun⟩ := hquiet
  obtain ⟨s1, hstep1, hsteps1⟩ := exists_step_of_steps_succ hsteps
  obtain ⟨s2, hstep2, hsteps2⟩ := exists_step_of_steps_succ hsteps1
  have i1 := issues_of_nothingIssued ⟨hnxt, hidEx, hexMem, hmemWb, hb, hs, hrun⟩ hstep1
  have n1 := nothingIssued_of_bubble i1 hifId
  have i2 := issues_of_nothingIssued n1 hstep2
  have hd : decode s1.ifId.ir = .instr i := by rw [i1.ifId]; exact hword
  have hd' : decode (beforeDecode s1).ifId.ir = .instr i := by rwa [beforeDecode_ifId]
  have hpc : (beforeDecode s1).ifId.pc = s.cur.pc := by rw [beforeDecode_ifId, i1.ifId]
  have hlatch : s2.idEx = latchFor i (beforeDecode s1) (readReg s.cur.x) := by
    rw [i2.idEx, issued_of_nothingIssued n1 hd, i1.cur]
  have hpc2 : s2.cur.pc = s.cur.pc + 8 := by
    rw [i2.cur, i1.cur]
    exact BitVec.add_assoc s.cur.pc 4 4
  have hparams : s2.params = s.params := i2.params.trans i1.params
  have hmem : s2.mem = s.mem := i2.mem.trans i1.mem
  have hnop : s2.ifId.ir = 0 := by
    rw [i2.ifId, i1.params, i1.mem, i1.cur]
    exact hnop4
  obtain ⟨hx, hhi, hlo, hmemt, hhalted⟩ :=
    ranAlone_of_steps i2.nxt i2.exMem i2.memWb i2.halted hnop (by rw [hparams, hmem, hpc2, hnop8]) hsteps2
  have heffect := ranAlone_latchFor s.params hd' { arch := s.cur, mem := s.mem } hpc
  have hhalts := haltsFrom_latchFor (p := s.params) (q := { arch := s.cur, mem := s.mem }) (readReg s.cur.x)
    (by simpa only [SeqState.current] using hword) hd'
  rw [hparams, hmem, hlatch, i2.cur, i1.cur] at hx hhi hlo hmemt
  rw [hlatch, i2.cur, i1.cur] at hhalted
  rw [← heffect]
  exact ⟨hx, hhi, hlo, hmemt, hhalted.trans hhalts⟩

end Sys2Proof.Proofs

namespace Sys2Proof.Proofs

open Sys2Proof Sys2Proof.Machine Sys2Proof.Statement

/-! ### The units in sequence and the registers clocked at once (R101) -/

/-! #### What Decode looks at -/

/-- The two states look the same to Decode, but for its entry conditions. -/
structure DecodeAgrees (a b : State) : Prop where
  ifId : a.ifId = b.ifId
  exMem : a.exMem = b.exMem
  memWb : a.memWb = b.memWb
  forwarding : a.forwarding = b.forwarding
  x : a.nxt.x = b.nxt.x

namespace DecodeAgrees
variable {a b : State} (h : DecodeAgrees a b)
include h

theorem hazard_eq (r : Reg) : hazard a r = hazard b r := by
  simp only [hazard, h.exMem, h.memWb, h.forwarding]

theorem stallOf_eq (o : Option Reg) : stallOf a o = stallOf b o := by
  cases o <;> simp only [stallOf, h.hazard_eq]

theorem operandValue_eq : operandValue a = operandValue b := by
  funext r
  simp only [operandValue, memWbValue, h.hazard_eq, h.exMem, h.memWb, h.x]

theorem stallDemand_eq : stallDemand a = stallDemand b := by
  simp only [stallDemand, stallNeeded, h.stallOf_eq, h.ifId]

theorem issued_eq : issued a = issued b := by
  have hlatch (i : Instr) : latchFor i a (operandValue a) = latchFor i b (operandValue b) := by
    simp only [latchFor, issuedFor, h.operandValue_eq, h.ifId]
  simp only [issued, hlatch, issuedLatch, plainIssue, operandField, h.ifId]

end DecodeAgrees

/-! #### The instruction decode stage of the clocked registers -/

/-- What the hazard unit and the forwarding multiplexers see. -/
def seenByDecode (s : State) : State :=
  { s with nxt := { s.nxt with x := (afterWriteback s).nxt.x }, exMem := (executed s).exMem,
           memWb := (afterMemory s).memWb }

theorem seenByDecode_agrees (s : State) : DecodeAgrees (seenByDecode s) (beforeDecode s) := by
  have hexMem : (executed s).exMem = computed s.cur.hi s.cur.lo s.idEx := by rw [executed_eq]; rfl
  constructor <;> simp [seenByDecode, hexMem, afterWriteback, afterMemory]

/-- What the stage answers. -/
def clockedDecode (s : State) : State :=
  if (!(executed s).branchPending && s.stall == 0 && s.ifId.ir != 0) = true then afterIssue (seenByDecode s)
  else s.setIdEx Latch.clear

theorem clockedStep_eq (s : State) :
    let taken := (executed s).branchPending
    let id := clockedDecode s
    let arch : Arch :=
      { pc := if taken then (executed s).branchTarget else if id.stall > 0 then s.cur.pc else s.cur.pc + 4,
        x := retired s.memWb s.nxt.x, hi := (executed s).nxt.hi, lo := (executed s).nxt.lo }
    clockedStep s =
      { s with
        cur := arch, nxt := arch, memWb := loaded s.params s.mem s.exMem, exMem := (executed s).exMem, idEx := id.idEx,
        ifId := if taken then Latch.clear else if id.stall > 0 then s.ifId
          else { Latch.clear with ir := memRead32 s.params (stored s.params s.mem s.exMem) s.cur.pc, pc := s.cur.pc },
        stall := if taken then 0 else id.stall - 1, halted := s.halted || haltsFrom s.memWb s.cur.x,
        branchTarget := (executed s).branchTarget, unimplementedSeen := id.unimplementedSeen,
        mem := stored s.params s.mem s.exMem, cycleCount := s.cycleCount + 1 } := by
  have hwb : settled s (writebackUnit s) = afterWriteback s := congrArg (settled s) (writebackUnit_eq s)
  have hmm : settled s (memoryUnit s) = afterMemory s := congrArg (settled s) (memoryUnit_eq s)
  have hex : settled s (executeUnit s) = executed s := rfl
  rw [clockedStep, hwb, hmm, hex, clockedDecode]
  cases hactive : (!(executed s).branchPending && s.stall == 0 && s.ifId.ir != 0)
  · simp only [Bool.false_eq_true, if_false]
    rfl
  · have hid := congrArg (settled s) (runUnit_decode_eq (seenByDecode s))
    simp only [seenByDecode] at hid
    simp only [if_true, hid]
    rfl

theorem afterIssue_congr {a b : State} (h : DecodeAgrees a b) (hs : a.stall = b.stall)
    (hu : a.unimplementedSeen = b.unimplementedSeen) :
    (afterIssue a).idEx = (afterIssue b).idEx ∧ (afterIssue a).stall = (afterIssue b).stall ∧
      (afterIssue a).unimplementedSeen = (afterIssue b).unimplementedSeen := by
  simp only [afterIssue, h.stallDemand_eq, h.issued_eq, h.ifId, hs, hu, and_self]

/-- The stage answers what the Decode unit answers in its turn. -/
theorem clockedDecode_eq (s : State) :
    (clockedDecode s).idEx = (beforeFetch s).idEx ∧ (clockedDecode s).stall = (beforeFetch s).stall ∧
      (clockedDecode s).unimplementedSeen = (beforeFetch s).unimplementedSeen := by
  rw [beforeFetch_eq, clockedDecode]
  by_cases hblocked : (executed s).branchPending = true ∨ 0 < s.stall
  · have hinactive : ¬(!(executed s).branchPending && s.stall == 0 && s.ifId.ir != 0) = true := by
      rcases hblocked with h | h
      · simp [h]
      · simp [h.ne']
    rw [afterDecode_of_blocked (by rwa [← executed_branchPending, beforeDecode_stall]), if_neg hinactive]
    simp
  · obtain ⟨htaken, hstall⟩ := not_or.1 hblocked
    rw [Bool.not_eq_true] at htaken
    have hs : s.stall = 0 := by omega
    rw [afterDecode_of_ready (by rwa [← executed_branchPending]) (by rwa [beforeDecode_stall])]
    by_cases h0 : s.ifId.ir = 0
    · rw [if_neg (by simp [h0]), afterIssue_of_nop (by rwa [beforeDecode_ifId])]
      simp
    · have hactive : (!(executed s).branchPending && s.stall == 0 && s.ifId.ir != 0) = true := by
        simpa [htaken, hs] using h0
      rw [if_pos hactive]
      exact afterIssue_congr (seenByDecode_agrees s) (beforeDecode_stall s).symm (beforeDecode_unimplementedSeen s).symm

/-! #### The whole edge -/

/-- The three cases of Fetch, field by field (R98 to R100). -/
theorem fetch_eq {s t : State} (hrun : s.halted = false) (hnxt : s.nxt = s.cur) (hstep : step s = .next t) :
    let taken := (executed s).branchPending
    let stall := (beforeFetch s).stall
    t.ifId = (if taken then Latch.clear else if stall > 0 then s.ifId
      else { Latch.clear with ir := memRead32 t.params t.mem s.cur.pc, pc := s.cur.pc }) ∧
    t.cur.pc = (if taken then (executed s).branchTarget else if stall > 0 then s.cur.pc else s.cur.pc + 4) ∧
    t.stall = if taken then 0 else stall - 1 := by
  cases hb : (executed s).branchPending with
  | true =>
    obtain ⟨hifId, hpc, -, hstall⟩ := fetch_of_taken hrun hstep hb
    exact ⟨hifId, hpc, hstall⟩
  | false =>
    rcases Nat.eq_zero_or_pos (beforeFetch s).stall with hs | hs
    · simpa [hs] using fetch_of_ready hrun hstep hb hs
    · simpa [hs] using fetch_of_stall hrun hstep hnxt hb hs

@[simp] theorem fetchUnit_branchTarget (s : State) : (fetchUnit s).branchTarget = s.branchTarget :=
  (congrArg State.branchTarget (fetchUnit_writes s).1 :)

theorem state_ext {a b : State} (cur : a.cur = b.cur) (nxt : a.nxt = b.nxt) (ifId : a.ifId = b.ifId)
    (idEx : a.idEx = b.idEx) (exMem : a.exMem = b.exMem) (memWb : a.memWb = b.memWb) (halted : a.halted = b.halted)
    (branchPending : a.branchPending = b.branchPending) (branchTarget : a.branchTarget = b.branchTarget)
    (stall : a.stall = b.stall) (forwarding : a.forwarding = b.forwarding) (cycleCount : a.cycleCount = b.cycleCount)
    (unimplementedSeen : a.unimplementedSeen = b.unimplementedSeen) (mem : a.mem = b.mem) (params : a.params = b.params)
    (stage : a.stage = b.stage) : a = b := by
  cases a
  cases b
  simp_all

/-- Settles O25: every register is loaded with what its unit leaves in its turn, since no unit looks at a field that an
earlier one has written, but for those the clocked Decode sees. -/
theorem stageOrderEqualsClockedHardware : Obligations.StageOrderEqualsClockedHardware := by
  unfold Obligations.StageOrderEqualsClockedHardware
  intro s hinv hrun
  obtain ⟨hnxt, hb, -, -, -, -, -, -, -, -, -, -, hstage⟩ := hinv
  have hstep := step_eq_commit hrun
  rw [hstep]
  refine congrArg Host.Outcome.next ?_
  generalize ht : (beforeCommit s).commit = t at hstep
  have hm := movesOn_of_step hrun hnxt hstep
  obtain ⟨hidEx, hstall, hseen⟩ := clockedDecode_eq s
  obtain ⟨hifId, hpc, hstallt⟩ := fetch_eq hrun hnxt hstep
  obtain ⟨-, -, hcount, hforwarding, -⟩ := cycleEndsWithCommit s t hrun hstep
  have hexecuted : (executed s).exMem = computed s.cur.hi s.cur.lo s.idEx ∧
      (executed s).nxt.hi = (hiLoWritten s.params (s.cur.hi, s.cur.lo) s.idEx).1 ∧
      (executed s).nxt.lo = (hiLoWritten s.params (s.cur.hi, s.cur.lo) s.idEx).2 := by
    simp only [executed_eq, afterExecute, hnxt, and_self]
  obtain ⟨hexMem, hhi, hlo⟩ := hexecuted
  have hunits : t.idEx = (beforeFetch s).idEx ∧ t.unimplementedSeen = (beforeFetch s).unimplementedSeen ∧
      t.branchTarget = (executed s).branchTarget ∧ t.stage = .writeback := by
    rw [← ht, executed_branchTarget]
    simp [beforeCommit, beforeFetch_eq]
  obtain ⟨hidExt, hseent, htarget, hstaget⟩ := hunits
  have hc := clockedStep_eq s
  dsimp only at hc hifId hpc hstallt
  rw [hm.params, hm.mem] at hifId
  rw [hstall, hidEx, hseen, hnxt, ← hifId, ← hpc, ← hstallt, hexMem, hhi, hlo, ← hm.x, ← hm.hi, ← hm.lo, ← hm.memWb,
    ← hm.exMem, ← hm.mem, ← hidExt, ← hseent, ← htarget, ← hcount] at hc
  rw [hc]
  exact state_ext rfl hm.nxt rfl rfl rfl rfl (by rw [hm.halted, hrun]; rfl) (hm.branchPending.trans hb.symm) rfl rfl
    hforwarding rfl rfl rfl hm.params (hstaget.trans hstage.symm)

end Sys2Proof.Proofs

namespace Sys2Proof.Proofs

open Sys2Proof Sys2Proof.Machine Sys2Proof.Statement

/-! ### An instruction alone in the four units, whatever the latches held before (R102, R120)

The units below act on an instruction by its constructor, so what they answer does not ask that the latch holds its
word. -/

/-! #### The fields Decode fills from the instruction itself (R64, R65) -/

/-- The extended immediate that `i` brings along, if it has one (R65). -/
def ownImm : Instr → Option Word
  | .andi _ _ imm | .ori _ _ imm | .xori _ _ imm | .lui _ _ imm => some (zeroImm imm)
  | .addi _ _ imm | .addiu _ _ imm | .slti _ _ imm | .lb _ _ imm | .lh _ _ imm | .lw _ _ imm | .sb _ _ imm
  | .sh _ _ imm | .sw _ _ imm | .beq _ _ imm | .bne _ _ imm | .blez _ _ imm | .bgtz _ _ imm | .bltz _ imm
  | .bgez _ imm => some (signImm imm)
  | _ => none

/-- The shift count that `i` brings along, if it has one. -/
def ownShamt : Instr → Option Reg
  | .sll _ _ _ shamt | .srl _ _ _ shamt | .sra _ _ _ shamt => some shamt
  | _ => none

/-- The jump index that `i` brings along, if it has one. -/
def ownTarget : Instr → Option (BitVec 26)
  | .j index | .jal index => some index
  | _ => none

/-- What `i` asks of Decode while `IF_ID` holds the word `w`: the fields of R75, its own operands, and otherwise those of
`w`. -/
def issueAs (i : Instr) (w : Word) : Issue :=
  { a := sourceA i, b := sourceB i, storeData := sourceStore i, dest := destOf i
    imm := (ownImm i).getD (signImm (immField w)), shamt := (ownShamt i).getD (shamtField w)
    target := (ownTarget i).getD (indexField w) }

/-- The latch Decode sends on for `i` with the source values `value`; a NOP becomes a bubble (R211). -/
def sentLatch (i : Instr) (s : State) (value : Reg → Word) : Latch :=
  match i with
  | .nop => Latch.clear
  | i => { issuedFor i s value with
      imm := (issueAs i s.ifId.ir).imm, shamt := (issueAs i s.ifId.ir).shamt, target := (issueAs i s.ifId.ir).target }

theorem sentLatch_namesDest (i : Instr) (s : State) (value : Reg → Word) : NamesDest i (sentLatch i s value) := by
  cases i <;> exact ⟨rfl, rfl⟩

theorem exec_at_decode {i : Instr} {s : State} (h : NoProducer s) :
    exec i (s.at .decode) = .next ((s.at .decode).setIdEx (sentLatch i s (readReg s.nxt.x))) := by
  by_cases hi : i = .nop
  · subst hi
    rfl
  · have hissue : exec i (s.at .decode) = .next (issue (issueAs i s.ifId.ir) (s.at .decode)) := by
      cases i with
      | nop => contradiction
      | _ => rfl
    have h' : NoProducer (s.at .decode) := h
    have hlatch : issuedLatch (issueAs i s.ifId.ir) (s.at .decode) = sentLatch i s (readReg s.nxt.x) := by
      have hfield (o : Option Reg) : operandField (s.at .decode) o = fieldFrom (readReg s.nxt.x) o := by
        rw [operandField_of_noProducer h']
        cases o <;> rfl
      simp only [issuedLatch, hfield]
      cases i with
      | nop => contradiction
      | _ => rfl
    rw [hissue, issue_of_noProducer h', hlatch]

/-! #### Execute, Memory and Writeback -/

/-- Execute of `i`, for any latch `ID_EX`. -/
theorem exec_at_execute (i : Instr) (s : State) :
    exec i (s.at .execute) = .next
      { s with
        exMem := { s.idEx with aluOutput := aluOf s.cur.hi s.cur.lo s.idEx (.instr i) },
        nxt := { s.nxt with hi := (hiLoAfter s.params (s.nxt.hi, s.nxt.lo) s.idEx (.instr i)).1,
                            lo := (hiLoAfter s.params (s.nxt.hi, s.nxt.lo) s.idEx (.instr i)).2 },
        branchPending := (transferOf s.idEx i).isSome || s.branchPending,
        branchTarget := (transferOf s.idEx i).getD s.branchTarget, stage := .execute } := by
  cases i with
  | beq | bne | blez | bgtz | bltz | bgez => exact congrArg Host.Outcome.next (executeBranch_eq _ (s.at .execute))
  | div rs rt | divu rs rt => exact hiLoOp_execute_eq rs rt _ s
  | _ => rfl

/-- Memory of `i`, for any latch `EX_MEM`. -/
theorem exec_at_memory (i : Instr) (s : State) :
    exec i (s.at .memory) = .next
      { s with
        memWb := { s.exMem with lmd := lmdOf s.params s.mem s.exMem (.instr i) },
        mem := memWrite s.params s.mem s.exMem.aluOutput (bytesStored i) s.exMem.storeData, stage := .memory } := by
  cases i <;> rfl

/-- R210: `i` halts the machine, `x` being the committed register file. -/
def haltsOn : Instr → Vector Word 32 → Bool
  | .syscall _, x => readReg x serviceRegister == haltCode
  | _, _ => false

theorem haltsOn_iff {i : Instr} {x : Vector Word 32} :
    haltsOn i x = true ↔ mnemonic i = "SYSCALL" ∧ readReg x 2 = 10 := by
  cases i with
  | syscall code => simp [haltsOn, mnemonic, serviceRegister, haltCode]
  | _ => simp [haltsOn, mnemonic]

/-- The register file after `i` has written its destination from the latch `l`. -/
def destWritten (i : Instr) (l : Latch) (x : Vector Word 32) : Vector Word 32 :=
  (destOf i).elim x fun r => writeReg x r (if isLoad i then l.lmd else l.aluOutput)

theorem writebackSyscall_eq (s : State) :
    writebackSyscall s = { s with halted := readReg s.cur.x serviceRegister == haltCode || s.halted } := by
  rcases writebackSyscall_cases s with ⟨hcode, h⟩ | ⟨hcode, h⟩ <;> rw [h]
  · rw [beq_iff_eq.2 hcode]
    rfl
  · rw [beq_false_of_ne hcode]
    rfl

/-- Writeback of `i`, for any latch `MEM_WB` with the destination of R75. -/
theorem exec_at_writeback {i : Instr} {s : State} (hl : NamesDest i s.memWb) :
    exec i (s.at .writeback) = .next
      { s with nxt := { s.nxt with x := destWritten i s.memWb s.nxt.x }, halted := haltsOn i s.cur.x || s.halted,
               stage := .writeback } := by
  obtain ⟨hw, hr⟩ := hl
  have hresult : writebackResult (s.at .writeback) =
      if (destOf i).isSome then (s.at .writeback).setNxtReg ((destOf i).getD 0) s.memWb.aluOutput
      else s.at .writeback := by rw [← hw, ← hr]; rfl
  have hload : writebackLoad (s.at .writeback) =
      if (destOf i).isSome then (s.at .writeback).setNxtReg ((destOf i).getD 0) s.memWb.lmd
      else s.at .writeback := by rw [← hw, ← hr]; rfl
  cases i with
  | nop => rfl
  | syscall code => exact congrArg Host.Outcome.next (writebackSyscall_eq (s.at .writeback))
  | lb | lh | lw => exact congrArg Host.Outcome.next hload
  | _ => exact congrArg Host.Outcome.next hresult

/-! #### The four units in turn -/

/-- The state in which `i`, passing alone, leaves the four units. -/
def afterPassage (i : Instr) (s : State) : State :=
  let l := sentLatch i s (readReg s.nxt.x)
  let e := { l with aluOutput := aluOf s.cur.hi s.cur.lo l (.instr i) }
  let m := { e with lmd := lmdOf s.params s.mem e (.instr i) }
  let hiLo := hiLoAfter s.params (s.nxt.hi, s.nxt.lo) l (.instr i)
  { s with
    nxt := { s.nxt with x := destWritten i m s.nxt.x, hi := hiLo.1, lo := hiLo.2 },
    idEx := l, exMem := e, memWb := m,
    halted := haltsOn i s.cur.x || s.halted,
    branchPending := (transferOf l i).isSome || s.branchPending,
    branchTarget := (transferOf l i).getD s.branchTarget,
    mem := memWrite s.params s.mem e.aluOutput (bytesStored i) l.storeData, stage := .writeback }

theorem passes_afterPassage (i : Instr) {s : State} (h : NoProducer s) : Passes i s (afterPassage i s) := by
  obtain ⟨hw, hr⟩ := sentLatch_namesDest i s (readReg s.nxt.x)
  exact ⟨_, _, _, exec_at_decode h, exec_at_execute i _, exec_at_memory i _, exec_at_writeback ⟨hw, hr⟩⟩

/-- Execute, Memory and Writeback of `i`, as an effect on the program-order state `q` behind it, are its "Architectural
effect" (R103). -/
theorem seqEffect_eq_of_sentLatch (p : Config.Params) (i : Instr) (s : State) (q : SeqState)
    (hpc : s.ifId.pc = q.arch.pc) :
    let l := sentLatch i s q.reg
    let e := { l with aluOutput := aluOf q.arch.hi q.arch.lo l (.instr i) }
    let m := { e with lmd := lmdOf p q.mem e (.instr i) }
    let hiLo := hiLoAfter p (q.arch.hi, q.arch.lo) l (.instr i)
    seqEffect p i q =
      { arch := { pc := (transferOf l i).getD (q.arch.pc + 4), x := destWritten i m q.arch.x, hi := hiLo.1,
                  lo := hiLo.2 },
        mem := memWrite p q.mem e.aluOutput (bytesStored i) l.storeData } := by
  obtain ⟨⟨pc, x, hi, lo⟩, m⟩ := q
  obtain rfl : s.ifId.pc = pc := hpc
  cases i with
  | slt | slti =>
    simp only [seqEffect, ← compareWord_eq]
    rfl
  | lui =>
    simp only [seqEffect, ← upperImm_zeroImm]
    rfl
  | mult | multu =>
    simp only [hiLoAfter, signedProduct_eq, unsignedProduct_eq]
    rfl
  | div =>
    rw [seqEffect_div]
    rfl
  | divu =>
    rw [seqEffect_divu]
    rfl
  | beq | bne | blez | bgtz | bltz | bgez =>
    simp only [seqEffect, branchIf_eq, transferOf, condLez_eq, condGtz_eq, condLtz_eq, condGez_eq]
    rfl
  | _ => rfl

/-- The pending transfer's target, or the address behind the instruction. -/
theorem getD_eq_ite_isSome (target : Option Word) (old behind : Word) :
    (if (target.isSome || false) = true then target.getD old else behind) = target.getD behind := by
  cases target <;> rfl

/-- Settles O26: with no producer ahead the instruction issues, the three units behind Decode run it to its end, and
that is its "Architectural effect". -/
theorem passageHasArchitecturalEffect : Obligations.PassageHasArchitecturalEffect := by
  unfold Obligations.PassageHasArchitecturalEffect
  intro i s hp hnxt hb q
  have heffect := seqEffect_eq_of_sentLatch s.params i s { arch := { s.cur with pc := s.ifId.pc }, mem := s.mem } rfl
  refine ⟨afterPassage i s, passes_afterPassage i hp, ?_, ?_, ?_⟩
  · simp only [q, heffect, afterPassage, hnxt]
    rfl
  · simp only [q, heffect, afterPassage, hnxt, hb]
    exact getD_eq_ite_isSome _ _ _
  · have hhalted : (afterPassage i s).halted = (haltsOn i s.cur.x || s.halted) := rfl
    rw [hhalted, Bool.or_eq_true, haltsOn_iff, or_comm]


end Sys2Proof.Proofs

namespace Sys2Proof.Proofs

open Sys2Proof Sys2Proof.Machine Sys2Proof.Statement

/-! ### The ALU-class instructions (R120 to R139) -/

/-- R120: the instructions of `41_alu.md`, whose one effect is `ALUOutput` in the destination register. -/
def isAlu : Instr → Bool
  | .add _ _ _ _ | .addu _ _ _ _ | .sub _ _ _ _ | .subu _ _ _ _ | .and _ _ _ _ | .or _ _ _ _ | .xor _ _ _ _
  | .nor _ _ _ _ | .slt _ _ _ _ | .sll _ _ _ _ | .srl _ _ _ _ | .sra _ _ _ _ | .addi _ _ _ | .addiu _ _ _
  | .slti _ _ _ | .andi _ _ _ | .ori _ _ _ | .xori _ _ _ | .lui _ _ _ => true
  | _ => false

/-- `ALUOutput` of `i`, passing alone. -/
def aluResult (i : Instr) (s : State) : Word :=
  aluOf s.cur.hi s.cur.lo (sentLatch i s (readReg s.nxt.x)) (.instr i)

/-- R120: an ALU-class instruction makes no memory access, no transfer and no HI/LO write, and does not halt. -/
theorem writesOnly_afterPassage {i : Instr} {rd : Reg} (hi : isAlu i = true) (hd : destOf i = some rd) (s : State) :
    WritesOnly s (afterPassage i s) rd (aluResult i s) := by
  cases i with
  | add | addu | sub | subu | and | or | xor | nor | slt | sll | srl | sra | addi | addiu | slti | andi | ori | xori
  | lui =>
    obtain rfl := Option.some.inj hd
    rfl
  | _ => exact nomatch hi

section AluRule
variable {i : Instr} {rd : Reg} {s : State} {v : Word}

/-- An ALU-class instruction passes and writes `v`, if `v` is what Execute computes. -/
theorem passes_writesOnly_of_alu (h : NoProducer s) (hv : aluResult i s = v) (hi : isAlu i = true := by rfl)
    (hd : destOf i = some rd := by rfl) : ∃ t, Passes i s t ∧ WritesOnly s t rd v :=
  ⟨afterPassage i s, passes_afterPassage i h, hv ▸ writesOnly_afterPassage hi hd s⟩

/-- The rule of an ALU-class instruction rests on what Execute computes; the word is the encoder's. -/
theorem registerRule_of_alu (h : NoProducer s) (hv : aluResult i s = v) (hi : isAlu i = true := by rfl)
    (hwf : WellFormed i := by rfl) (hd : destOf i = some rd := by rfl) : RegisterRule i (encode i) s rd v :=
  ⟨decodeEncodeRoundTrip i hwf, passes_writesOnly_of_alu h hv hi hd⟩

end AluRule

/-- R132: the arithmetic right shift is the floor of the division of the signed value by a power of two. -/
theorem shiftRightArith_eq (b : Word) (n : Nat) : shiftRightArith b n = BitVec.ofInt 32 (b.toInt / 2 ^ n) := by
  rw [shiftRightArith, BitVec.sshiftRight, Int.shiftRight_eq_div_pow]
  norm_cast

/-- R136 to R138: zero extension puts a zero upper half before the immediate. -/
theorem zeroImm_eq (imm : Half) : zeroImm imm = 0#16 ++ imm := by
  have happend := toNat_append_eq_add 0#16 imm
  apply BitVec.eq_of_toNat_eq
  simp [zeroImm] at happend ⊢
  omega

/-- Settles O27: the sum and the difference of words are those modulo 2^32. -/
theorem addAndSubtract : Obligations.AddAndSubtract := by
  unfold Obligations.AddAndSubtract
  intro rs rt rd sh s h a b
  have hadd : addWords a b = a + b := rfl
  have hsub : subWords a b = a - b := rfl
  exact ⟨registerRule_of_alu h hadd, registerRule_of_alu h hadd, registerRule_of_alu h hsub,
    registerRule_of_alu h hsub⟩

/-- Settles O28: Execute of each is the operation on the two words. -/
theorem bitwiseLogic : Obligations.BitwiseLogic := by
  unfold Obligations.BitwiseLogic
  intro rs rt rd sh s h a b
  have hand : andWords a b = a &&& b := rfl
  have hor : orWords a b = a ||| b := rfl
  have hxor : xorWords a b = a ^^^ b := rfl
  have hnor : norWords a b = ~~~(a ||| b) := rfl
  exact ⟨registerRule_of_alu h hand, registerRule_of_alu h hor, registerRule_of_alu h hxor,
    registerRule_of_alu h hnor⟩

/-- Settles O29: both make the word `compareWord`, of two registers and of a register and the immediate. -/
theorem signedCompare : Obligations.SignedCompare := by
  unfold Obligations.SignedCompare
  intro rs rt rd sh imm s h a b
  exact ⟨registerRule_of_alu h (compareWord_eq a b), registerRule_of_alu h (compareWord_eq a (imm.signExtend 32))⟩

/-- Settles O30: SLL passes with any fields, and only its word needs to differ from the NOP's. -/
theorem shiftsByConstant : Obligations.ShiftsByConstant := by
  unfold Obligations.ShiftsByConstant
  intro rs rt rd sh s h b
  have hsll : shiftLeft b sh.toNat = b <<< sh.toNat := rfl
  have hsrl : shiftRight b sh.toNat = b >>> sh.toNat := rfl
  exact ⟨decodeEncodeRoundTrip (.sll rs rt rd sh), passes_writesOnly_of_alu h hsll, registerRule_of_alu h hsrl,
    registerRule_of_alu h (shiftRightArith_eq b sh.toNat)⟩

/-- Settles O31: ADDI and ADDIU are one Execute function, on the sign-extended immediate. -/
theorem addImmediate : Obligations.AddImmediate := by
  unfold Obligations.AddImmediate
  intro rs rt imm s h v
  have hv : addWords (readReg s.nxt.x rs) (signImm imm) = v := rfl
  exact ⟨registerRule_of_alu h hv, registerRule_of_alu h hv⟩

/-- Settles O32: the immediate Decode issues is the one with a zero upper half, and LUI shifts it there. -/
theorem logicImmediateAndUpper : Obligations.LogicImmediateAndUpper := by
  unfold Obligations.LogicImmediateAndUpper
  intro rs rt imm s h a
  rw [← zeroImm_eq]
  have handi : andWords a (zeroImm imm) = a &&& zeroImm imm := rfl
  have hori : orWords a (zeroImm imm) = a ||| zeroImm imm := rfl
  have hxori : xorWords a (zeroImm imm) = a ^^^ zeroImm imm := rfl
  exact ⟨registerRule_of_alu h handi, registerRule_of_alu h hori, registerRule_of_alu h hxori,
    registerRule_of_alu h (upperImm_zeroImm imm)⟩

end Sys2Proof.Proofs

namespace Sys2Proof.Proofs

open Sys2Proof Sys2Proof.Machine Sys2Proof.Statement

/-! ### Multiply, divide, HI and LO (R150 to R160) -/

/-! #### The values -/

section Values

/-- The two halves of a 64-bit value, put together again. -/
theorem hiLoOf_append (p : BitVec 64) : (hiLoOf p).1 ++ (hiLoOf p).2 = p := by
  have happend : p.extractLsb' 32 32 ++ p.extractLsb' 0 32 = p.extractLsb' 0 (32 + 32) :=
    BitVec.extractLsb'_append_extractLsb'_eq_extractLsb' rfl
  exact happend.trans BitVec.extractLsb'_eq_self

variable (a b : Word)

/-- R151: 64 bits hold every product of two signed words. -/
theorem signedProduct_toInt : ((signedProduct a b).1 ++ (signedProduct a b).2).toInt = a.toInt * b.toInt := by
  have hlower : -2 ^ 62 ≤ a.toInt * b.toInt := BitVec.le_toInt_mul_toInt
  have hupper : a.toInt * b.toInt ≤ 2 ^ 62 := BitVec.toInt_mul_toInt_le
  rw [signedProduct, hiLoOf_append, BitVec.toInt_ofInt]
  exact Int.bmod_eq_of_le (by norm_num; omega) (by norm_num; omega)

/-- R152: 64 bits hold every product of two unsigned words. -/
theorem unsignedProduct_toNat : ((unsignedProduct a b).1 ++ (unsignedProduct a b).2).toNat = a.toNat * b.toNat := by
  have hlt : a.toNat * b.toNat < 2 ^ 32 * 2 ^ 32 := Nat.mul_lt_mul'' a.isLt b.isLt
  rw [unsignedProduct, hiLoOf_append, BitVec.toNat_ofNat]
  exact Nat.mod_eq_of_lt hlt

variable {a b}

/-- R153: the one quotient that does not fit a signed word is that of the overflow case. -/
theorem dividend_eq_sdiv_mul_add_srem (hov : ¬(a = 0x80000000 ∧ b = 0xFFFFFFFF)) :
    a.toInt = (a.sdiv b).toInt * b.toInt + (a.srem b).toInt := by
  rw [BitVec.toInt_sdiv_of_ne_or_ne a b (not_and_or.1 hov), BitVec.toInt_srem, Int.tdiv_mul_add_tmod]

theorem natAbs_srem_lt (hb : b ≠ 0) : (a.srem b).toInt.natAbs < b.toInt.natAbs := by
  have hpos : 0 < b.toInt.natAbs := Int.natAbs_pos.2 fun h => hb (BitVec.toInt_inj.1 h)
  rw [BitVec.toInt_srem, Int.natAbs_tmod]
  exact Nat.mod_lt _ hpos

/-- R153: the remainder is zero or has the dividend's sign. -/
theorem srem_eq_zero_or_sign_eq (a b : Word) :
    (a.srem b).toInt = 0 ∨ (a.srem b).toInt.sign = a.toInt.sign := by
  rw [BitVec.toInt_srem, ← Int.sign_eq_zero_iff_zero, Int.sign_tmod]
  split
  · exact .inl rfl
  · exact .inr rfl

/-- R154: there is no overflow case. -/
theorem dividend_eq_udiv_mul_add_umod (a b : Word) : a.toNat = (a / b).toNat * b.toNat + (a % b).toNat := by
  rw [BitVec.toNat_udiv, BitVec.toNat_umod, Nat.div_add_mod']

end Values

/-! #### The writers of HI and LO, passing alone -/

/-- R150: the instructions of `42_muldiv_hilo.md` that write HI or LO. -/
def isHiLoWriter : Instr → Bool
  | .mult _ _ _ _ | .multu _ _ _ _ | .div _ _ _ _ | .divu _ _ _ _ | .mthi _ _ _ _ | .mtlo _ _ _ _ => true
  | _ => false

/-- (HI, LO) after `i`, passing alone. -/
def hiLoResult (i : Instr) (s : State) : Word × Word :=
  hiLoAfter s.params (s.nxt.hi, s.nxt.lo) (sentLatch i s (readReg s.nxt.x)) (.instr i)

/-- R150: a writer of HI and LO writes no register, makes no memory access and no transfer, and does not halt. -/
theorem onlyArch_afterPassage {i : Instr} (hi : isHiLoWriter i = true) (s : State) :
    OnlyArch s (afterPassage i s) { s.nxt with hi := (hiLoResult i s).1, lo := (hiLoResult i s).2 } := by
  cases i with
  | mult | multu | div | divu | mthi | mtlo => rfl
  | _ => exact nomatch hi

/-- Settles O33: HI and LO are the halves of a 64-bit value that holds the product exactly. -/
theorem productFillsHiAndLo : Obligations.ProductFillsHiAndLo := by
  unfold Obligations.ProductFillsHiAndLo
  intro rs rt rd sh s h a b
  exact ⟨decodeEncodeRoundTrip (.mult rs rt rd sh) rfl,
    ⟨_, passes_afterPassage _ h, onlyArch_afterPassage rfl s, signedProduct_toInt a b⟩,
    decodeEncodeRoundTrip (.multu rs rt rd sh) rfl,
    ⟨_, passes_afterPassage _ h, onlyArch_afterPassage rfl s, unsignedProduct_toNat a b⟩⟩

/-- Settles O34: away from the zero divisor and the overflow, LO is the truncated quotient and HI its remainder. -/
theorem signedDivision : Obligations.SignedDivision := by
  unfold Obligations.SignedDivision
  intro rs rt rd sh s h a b
  set t := afterPassage (.div rs rt rd sh) s
  have hresult : (t.nxt.hi, t.nxt.lo) = (signedQuotient s.params a b).getD (s.nxt.hi, s.nxt.lo) := rfl
  refine ⟨decodeEncodeRoundTrip (.div rs rt rd sh) rfl, t, passes_afterPassage _ h, onlyArch_afterPassage rfl s,
    fun hb => ?_, fun hov => ?_, fun ⟨hb, hov⟩ => ?_⟩
  · rw [signedQuotient, if_pos hb] at hresult
    exact Prod.mk.inj hresult
  · have hb : b ≠ 0 := by rw [hov.2]; decide
    rw [signedQuotient, if_neg hb, if_pos hov] at hresult
    exact Prod.mk.inj hresult
  · rw [signedQuotient_eq s.params hb hov] at hresult
    obtain ⟨hhi, hlo⟩ := Prod.mk.inj hresult
    rw [hhi, hlo]
    exact ⟨dividend_eq_sdiv_mul_add_srem hov, natAbs_srem_lt hb, srem_eq_zero_or_sign_eq a b⟩

/-- Settles O35: for a divisor other than 0, LO is the quotient and HI the remainder of the unsigned values. -/
theorem unsignedDivision : Obligations.UnsignedDivision := by
  unfold Obligations.UnsignedDivision
  intro rs rt rd sh s h a b
  set t := afterPassage (.divu rs rt rd sh) s
  have hresult : (t.nxt.hi, t.nxt.lo) = (unsignedQuotient a b).getD (s.nxt.hi, s.nxt.lo) := rfl
  refine ⟨decodeEncodeRoundTrip (.divu rs rt rd sh) rfl, t, passes_afterPassage _ h, onlyArch_afterPassage rfl s,
    fun hb => ?_, fun hb => ?_⟩
  · rw [unsignedQuotient, if_pos hb] at hresult
    exact Prod.mk.inj hresult
  · rw [unsignedQuotient_eq hb] at hresult
    obtain ⟨hhi, hlo⟩ := Prod.mk.inj hresult
    rw [hhi, hlo]
    exact ⟨dividend_eq_udiv_mul_add_umod a b, BitVec.umod_lt a ((BitVec.pos_iff_ne_zero b).2 hb)⟩

/-- Settles O36: Execute of a move from HI or LO reads the committed one, and a move to one of them gives the other the
value it had. -/
theorem hiLoMoves : Obligations.HiLoMoves := by
  unfold Obligations.HiLoMoves
  intro rs rt rd sh s h
  exact ⟨⟨decodeEncodeRoundTrip (.mfhi rs rt rd sh) rfl, _, passes_afterPassage _ h, rfl⟩,
    ⟨decodeEncodeRoundTrip (.mflo rs rt rd sh) rfl, _, passes_afterPassage _ h, rfl⟩,
    decodeEncodeRoundTrip (.mthi rs rt rd sh) rfl, ⟨_, passes_afterPassage _ h, onlyArch_afterPassage rfl s⟩,
    decodeEncodeRoundTrip (.mtlo rs rt rd sh) rfl, ⟨_, passes_afterPassage _ h, onlyArch_afterPassage rfl s⟩⟩

/-! #### Behind a writer of HI and LO, in the pipeline (R159) -/

/-- The commit makes what Execute has written to HI and LO readable in the next cycle (R81). -/
theorem cur_hiLo_of_step {s t : State} (hrun : s.halted = false) (hnxt : s.nxt = s.cur) (hstep : step s = .next t) :
    t.cur.hi = (executed s).nxt.hi ∧ t.cur.lo = (executed s).nxt.lo := by
  have hm := movesOn_of_step hrun hnxt hstep
  rw [hm.hi, hm.lo, executed_eq, ← hnxt]
  exact ⟨rfl, rfl⟩

/-- An instruction without sources demands no stall (R96). -/
theorem stallDemand_of_no_sources {i : Instr} {s : State} (hd : decode s.ifId.ir = .instr i) (hi : sourcesOf i = []) :
    stallDemand s = 0 := by
  rw [stallDemand_of_decode hd, stallNeeded_issueOf_eq_zero_iff, hi]
  exact fun _ hr => nomatch hr

/-- A word that is neither flushed nor stalled issues in the cycle that finds it in `IF_ID` (R88, R97). -/
theorem idEx_of_step_of_ready {s t : State} (hrun : s.halted = false) (hstep : step s = .next t)
    (hs : s.stall = 0) (hb : (executed s).branchPending = false) (hdemand : stallDemand (beforeDecode s) = 0) :
    t.idEx = issued (beforeDecode s) := by
  have hidEx : t.idEx = (afterDecode (beforeDecode s)).idEx := by
    simp [eq_commit_of_step hrun hstep, beforeCommit, beforeFetch_eq]
  rw [hidEx, afterDecode_of_ready ((executed_branchPending s).symm.trans hb) ((beforeDecode_stall s).trans hs),
    afterIssue, hdemand]
  rfl

/-- An instruction without sources, in `IF_ID`, issues in this cycle and executes in the next one, with the HI and LO
that Execute has left in this one. -/
theorem executes_of_no_sources {s t1 t2 : State} {i : Instr} (hi : i ≠ .nop) (hsources : sourcesOf i = [])
    (hrun : s.halted = false) (hnxt : s.nxt = s.cur) (hs : s.stall = 0) (hb : (executed s).branchPending = false)
    (hsys : ¬IsSyscall s.memWb.ir) (hstep1 : step s = .next t1) (hstep2 : step t1 = .next t2)
    (hd : decode s.ifId.ir = .instr i) :
    t1.idEx.ir = s.ifId.ir ∧ t2.exMem.ir = s.ifId.ir ∧
      t2.exMem.aluOutput = aluOf (executed s).nxt.hi (executed s).nxt.lo t1.idEx (.instr i) := by
  have hd' : decode (beforeDecode s).ifId.ir = .instr i := by rwa [beforeDecode_ifId]
  have hidEx := idEx_of_step_of_ready hrun hstep1 hs hb (stallDemand_of_no_sources hd' hsources)
  rw [issued_of_decode hd', latchFor_of_ne_nop hi] at hidEx
  have hir : t1.idEx.ir = s.ifId.ir := by rw [hidEx, issuedFor, beforeDecode_ifId]
  have m1 := movesOn_of_step hrun hnxt hstep1
  have hrun1 : t1.halted = false :=
    m1.halted.trans (Bool.eq_false_iff.2 fun h => hsys (haltsFrom_iff.1 h).1)
  have hexMem := (movesOn_of_step hrun1 m1.nxt hstep2).exMem
  obtain ⟨hhi, hlo⟩ := cur_hiLo_of_step hrun hnxt hstep1
  rw [computed, hir, hd, hhi, hlo] at hexMem
  rw [hexMem]
  exact ⟨hir, rfl, rfl⟩

/-- Settles O56: MFHI and MFLO have no source to wait for, and execute one cycle behind the writer, after the commit. -/
theorem hiLoNeedsNoInterlock : Obligations.HiLoNeedsNoInterlock := by
  unfold Obligations.HiLoNeedsNoInterlock
  intro s t1 t2 rs rt rd sh hinv hrun hs hb hsys hstep1 hstep2
  obtain ⟨hnxt, -⟩ := hinv
  exact ⟨executes_of_no_sources nofun rfl hrun hnxt hs hb hsys hstep1 hstep2,
    executes_of_no_sources nofun rfl hrun hnxt hs hb hsys hstep1 hstep2⟩

end Sys2Proof.Proofs

namespace Sys2Proof.Proofs

open Sys2Proof Sys2Proof.Machine Sys2Proof.Statement

/-! ### Branches and jumps (R170 to R181) -/

/-! #### The conditions of the branches, by bit 31 and as signed comparisons (R171 to R176) -/

section Conditions
variable (a : Word)

theorem condLez_iff_msb : condLez a = true ↔ a.msb = true ∨ a = 0 := by
  rw [condLez_eq, Bool.or_eq_true, beq_iff_eq]

theorem condGtz_iff_msb : condGtz a = true ↔ a.msb = false ∧ a ≠ 0 := by
  rw [condGtz_eq, Bool.and_eq_true, Bool.not_eq_true', bne_iff_ne]

theorem condLtz_iff_msb : condLtz a = true ↔ a.msb = true := by rw [condLtz_eq]

theorem condGez_iff_msb : condGez a = true ↔ a.msb = false := by rw [condGez_eq, Bool.not_eq_true']

theorem condLez_iff_toInt : condLez a = true ↔ a.toInt ≤ 0 := decide_eq_true_iff
theorem condGtz_iff_toInt : condGtz a = true ↔ 0 < a.toInt := decide_eq_true_iff
theorem condLtz_iff_toInt : condLtz a = true ↔ a.toInt < 0 := decide_eq_true_iff
theorem condGez_iff_toInt : condGez a = true ↔ 0 ≤ a.toInt := decide_eq_true_iff

end Conditions

/-! #### A branch or jump passing alone -/

/-- The instructions of `43_branch_jump.md`. -/
def isBranchOrJump : Instr → Bool
  | .beq _ _ _ | .bne _ _ _ | .blez _ _ _ | .bgtz _ _ _ | .bltz _ _ | .bgez _ _ | .j _ | .jal _ | .jr _ _ _ _
  | .jalr _ _ _ _ => true
  | _ => false

/-- The transfer that `i`, passing alone, makes in Execute, if it makes one. -/
def transferTarget (i : Instr) (s : State) : Option Word := transferOf (sentLatch i s (readReg s.nxt.x)) i

/-- The architectural state with the link written, if `i` has a destination (R178, R180). -/
def linked (i : Instr) (s : State) : Arch :=
  { s.nxt with x := (destOf i).elim s.nxt.x fun r => writeReg s.nxt.x r (s.ifId.pc + 4) }

/-- A branch or jump writes the link, if it has one, and raises its transfer; it makes no memory access and no HI/LO
write, and does not halt. -/
theorem afterPassage_of_isBranchOrJump {i : Instr} (hi : isBranchOrJump i = true) (s : State) :
    afterPassage i s =
      { s with nxt := linked i s, branchPending := (transferTarget i s).isSome || s.branchPending,
               branchTarget := (transferTarget i s).getD s.branchTarget,
               idEx := (afterPassage i s).idEx, exMem := (afterPassage i s).exMem, memWb := (afterPassage i s).memWb,
               stage := (afterPassage i s).stage } := by
  cases i with
  | beq | bne | blez | bgtz | bltz | bgez | j | jal | jr | jalr => rfl
  | _ => exact nomatch hi

section TransferRule
variable {i : Instr} {s : State} {target : Word}

theorem transfers_afterPassage (hi : isBranchOrJump i = true) (ht : transferTarget i s = some target) :
    Transfers s (afterPassage i s) (linked i s) target := by
  have hframe := afterPassage_of_isBranchOrJump hi s
  rw [ht] at hframe
  exact hframe

theorem onlyArch_afterPassage_of_no_transfer (hi : isBranchOrJump i = true) (ht : transferTarget i s = none) :
    OnlyArch s (afterPassage i s) (linked i s) := by
  have hframe := afterPassage_of_isBranchOrJump hi s
  rw [ht] at hframe
  exact hframe

/-- R177 to R180: a jump passes and is always taken. -/
theorem passes_transfers_of_jump (h : NoProducer s) (ht : transferTarget i s = some target)
    (hi : isBranchOrJump i = true := by rfl) : ∃ t, Passes i s t ∧ Transfers s t (linked i s) target :=
  ⟨afterPassage i s, passes_afterPassage i h, transfers_afterPassage hi ht⟩

/-- R170: the rule of a conditional branch rests on the condition that Execute tests; the word is the encoder's. -/
theorem branchRule_of_condition {taken : Bool} {cond : Prop} {offset : Half} (h : NoProducer s)
    (hcond : taken = true ↔ cond) (ht : transferTarget i s = if taken then some (branchGoal s offset) else none)
    (hi : isBranchOrJump i = true := by rfl) (hlink : linked i s = s.nxt := by rfl) (hwf : WellFormed i := by rfl) :
    BranchRule i (encode i) s cond offset := by
  refine ⟨decodeEncodeRoundTrip i hwf, afterPassage i s, passes_afterPassage i h, fun hc => ?_, fun hc => ?_⟩
  · rw [if_pos (hcond.2 hc)] at ht
    exact hlink ▸ transfers_afterPassage hi ht
  · rw [if_neg (mt hcond.1 hc)] at ht
    exact hlink ▸ onlyArch_afterPassage_of_no_transfer hi ht

end TransferRule

/-- Settles O37: Execute compares the two words Decode has read. -/
theorem branchesOnEquality : Obligations.BranchesOnEquality := by
  unfold Obligations.BranchesOnEquality
  intro rs rt offset s h a b
  have heq : condEq a b = true ↔ a = b := beq_iff_eq
  have hne : condNe a b = true ↔ a ≠ b := bne_iff_ne
  exact ⟨branchRule_of_condition h heq rfl, branchRule_of_condition h hne rfl⟩

/-- Settles O38: each condition, a comparison of the signed value with 0, is one of bit 31 and the test for zero. -/
theorem branchesOnSign : Obligations.BranchesOnSign := by
  unfold Obligations.BranchesOnSign
  intro rs rt offset s h a
  exact ⟨branchRule_of_condition h (condLez_iff_msb a) rfl, branchRule_of_condition h (condGtz_iff_msb a) rfl,
    branchRule_of_condition h (condLtz_iff_msb a) rfl, branchRule_of_condition h (condGez_iff_msb a) rfl,
    (condLez_iff_msb a).symm.trans (condLez_iff_toInt a), (condGtz_iff_msb a).symm.trans (condGtz_iff_toInt a),
    (condLtz_iff_msb a).symm.trans (condLtz_iff_toInt a), (condGez_iff_msb a).symm.trans (condGez_iff_toInt a)⟩

/-- Settles O39: the latch holds the jump's own address, from which the target's upper bits and the link come. -/
theorem jumpsToRegionTarget : Obligations.JumpsToRegionTarget := by
  unfold Obligations.JumpsToRegionTarget
  intro index s h goal
  exact ⟨decodeEncodeRoundTrip (.j index) rfl, passes_transfers_of_jump h rfl,
    decodeEncodeRoundTrip (.jal index) rfl, passes_transfers_of_jump h rfl⟩

/-- Settles O40: the target was read in Decode, before the link is written. -/
theorem jumpsToRegister : Obligations.JumpsToRegister := by
  unfold Obligations.JumpsToRegister
  intro rs rt rd sh s h
  exact ⟨decodeEncodeRoundTrip (.jr rs rt rd sh) rfl, passes_transfers_of_jump h rfl,
    decodeEncodeRoundTrip (.jalr rs rt rd sh) rfl, passes_transfers_of_jump h rfl⟩

/-! ### The flush behind a taken transfer (R182, R88, R98) -/

/-- Whatever Decode sends on for the word in `IF_ID`, it is that word; a NOP's bubble holds the NOP's word. -/
theorem issued_ir (s : State) : (issued s).ir = s.ifId.ir := by
  cases hd : decode s.ifId.ir with
  | unimplemented w => simp only [issued, hd, issuedLatch]
  | instr i =>
    rw [issued_of_decode hd]
    by_cases hi : i = .nop
    · subst hi
      rw [latchFor_nop, decode_eq_nop_iff.1 hd]
      rfl
    · rw [latchFor_of_ne_nop hi, issuedFor]

/-- Fetch finds no stall if none was left over and Decode demands none. -/
theorem beforeFetch_stall_eq_zero {s : State} (hs : s.stall = 0) (hdemand : stallDemand (beforeDecode s) = 0) :
    (beforeFetch s).stall = 0 := by
  rw [beforeFetch_eq]
  by_contra hpos
  exact (stallDemand_pos_of_afterDecode ((beforeDecode_stall s).trans hs) (Nat.pos_of_ne_zero hpos)).ne' hdemand

/-- The word in `IF_ID` is flushed: it is neither issued nor reported (R88). -/
theorem decode_of_taken {s t : State} (hrun : s.halted = false) (hstep : step s = .next t)
    (h : (executed s).branchPending = true) : t.idEx = Latch.clear ∧ t.unimplementedSeen = s.unimplementedSeen := by
  have hb : (beforeDecode s).branchPending = true := (executed_branchPending s).symm.trans h
  simp [eq_commit_of_step hrun hstep, beforeCommit, beforeFetch_eq, afterDecode_of_blocked (.inl hb)]

/-- In the cycle after the flush the two empty slots move on as bubbles, and Fetch reads at the PC. -/
theorem step_of_flushed {t u : State} (hrun : t.halted = false) (hnxt : t.nxt = t.cur) (hidEx : t.idEx = Latch.clear)
    (hifId : t.ifId = Latch.clear) (hb : t.branchPending = false) (hs : t.stall = 0) (hstep : step t = .next u) :
    u.exMem = Latch.clear ∧ u.idEx = Latch.clear ∧ u.ifId.pc = t.cur.pc ∧ u.cur.pc = t.cur.pc + 4 := by
  have hir : t.ifId.ir = 0 := congrArg Latch.ir hifId
  have hnop : decode (beforeDecode t).ifId.ir = .instr .nop := by rw [beforeDecode_ifId, decode_eq_nop_iff.2 hir]
  have huntaken : (executed t).branchPending = false := by
    rw [executed_branchPending, beforeDecode_branchPending, hidEx, latchTransfer_clear, hb]
    rfl
  obtain ⟨hfetched, hpc, -⟩ :=
    fetch_of_ready hrun hstep huntaken (beforeFetch_stall_eq_zero hs (stallDemand_of_no_sources hnop rfl))
  refine ⟨?_, idEx_of_step_of_nop hrun hstep hir, congrArg Latch.pc hfetched, hpc⟩
  rw [(movesOn_of_step hrun hnxt hstep).exMem, hidEx, computed_clear]

/-- While an instruction is held in `IF_ID` only a bubble is in `ID_EX` (R27). -/
theorem stall_eq_zero_of_idEx {s : State} (hinv : PipelineInv s) (h : s.idEx.ir ≠ 0) : s.stall = 0 := by
  obtain ⟨-, -, -, -, -, -, -, -, -, hheld, -⟩ := hinv
  by_contra hs
  exact h (congrArg Latch.ir (hheld (Nat.pos_of_ne_zero hs)).1)

/-- Decode meets no producer if neither the instruction about to execute nor the one about to access memory has a
destination. -/
theorem noProducer_beforeDecode {s : State} (hidEx : s.idEx.regWrite = false) (hexMem : s.exMem.regWrite = false) :
    NoProducer (beforeDecode s) := by
  rw [NoProducer, beforeDecode_exMem, beforeDecode_memWb]
  exact ⟨hidEx, hexMem⟩

/-- Settles O55: a raised transfer makes Decode send a bubble on and Fetch clear `IF_ID`; without one, and with no
producer ahead, Decode issues and Fetch reads on. -/
theorem takenTransferFlushesTwoSlots : Obligations.TakenTransferFlushesTwoSlots := by
  unfold Obligations.TakenTransferFlushesTwoSlots
  refine ⟨fun s t hinv hrun hb hstep => ?_, fun s t hinv hrun hb hir hx hm hstep => ?_⟩
  · obtain ⟨hnxt, -⟩ := hinv
    have hmoves := movesOn_of_step hrun hnxt hstep
    obtain ⟨hidEx, hseen⟩ := decode_of_taken hrun hstep hb
    obtain ⟨hifId, hpc, hpending, hstall⟩ := fetch_of_taken hrun hstep hb
    have hexMem : t.exMem.ir = s.idEx.ir := by rw [hmoves.exMem, computed]
    refine ⟨hexMem, hidEx, hifId, hpc, hpending, hstall, hseen, fun u hrun' hstep' => ?_⟩
    rw [← hpc]
    exact step_of_flushed hrun' hmoves.nxt hidEx hifId hpending hstall hstep'
  · have hs := stall_eq_zero_of_idEx hinv hir
    have hdemand := stallDemand_of_noProducer (noProducer_beforeDecode hx hm)
    obtain ⟨hfetched, hpc, -⟩ := fetch_of_ready hrun hstep hb (beforeFetch_stall_eq_zero hs hdemand)
    refine ⟨?_, congrArg Latch.pc hfetched, hpc⟩
    rw [idEx_of_step_of_ready hrun hstep hs hb hdemand, issued_ir, beforeDecode_ifId]

end Sys2Proof.Proofs

namespace Sys2Proof.Proofs

open Sys2Proof Sys2Proof.Machine Sys2Proof.Statement

/-! ### Loads and stores passing alone (R190 to R196) -/

/-- The latch with which `i`, passing alone, reaches the Memory unit: `ALUOutput` is the effective address (R190). -/
def accessLatch (i : Instr) (s : State) : Latch :=
  let l := sentLatch i s (readReg s.nxt.x)
  { l with aluOutput := aluOf s.cur.hi s.cur.lo l (.instr i) }

/-- `LMD` of `i`, passing alone. -/
def loadResult (i : Instr) (s : State) : Word := lmdOf s.params s.mem (accessLatch i s) (.instr i)

/-- R191 to R193: a load writes no memory, makes no transfer and no HI/LO write, and does not halt. -/
theorem writesOnly_afterPassage_of_isLoad {i : Instr} {rt : Reg} (hi : isLoad i = true) (hd : destOf i = some rt)
    (s : State) : WritesOnly s (afterPassage i s) rt (loadResult i s) := by
  cases i with
  | lb | lh | lw =>
    obtain rfl := Option.some.inj hd
    rfl
  | _ => exact nomatch hi

/-- R194 to R196: a store writes no register, makes no transfer, and does not halt; its one effect is `MemWrite`. -/
theorem afterPassage_of_isStore {i : Instr} (hi : bytesStored i ≠ 0) (s : State) :
    afterPassage i s =
      { s with mem := memWrite s.params s.mem (accessLatch i s).aluOutput (bytesStored i) (accessLatch i s).storeData,
               idEx := (afterPassage i s).idEx, exMem := (afterPassage i s).exMem, memWb := (afterPassage i s).memWb,
               stage := (afterPassage i s).stage } := by
  cases i with
  | sb | sh | sw => rfl
  | _ => exact absurd rfl hi

section LoadStoreRule
variable {i : Instr} {s : State}

/-- The rule of a load rests on the value Memory reads; the word is the encoder's. -/
theorem registerRule_of_load {rt : Reg} {v : Word} (h : NoProducer s) (hv : loadResult i s = v)
    (hi : isLoad i = true := by rfl) (hwf : WellFormed i := by rfl) (hd : destOf i = some rt := by rfl) :
    RegisterRule i (encode i) s rt v :=
  ⟨decodeEncodeRoundTrip i hwf, afterPassage i s, passes_afterPassage i h,
    hv ▸ writesOnly_afterPassage_of_isLoad hi hd s⟩

/-- The rule of a store rests on its address, its data and its width; the word is the encoder's. -/
theorem storeRule_of_store {ea v : Word} {n : Nat} (h : NoProducer s) (hm : s.mem.wf = true)
    (hea : (accessLatch i s).aluOutput = ea) (hv : (accessLatch i s).storeData = v) (hn : bytesStored i = n)
    (hpos : n ≠ 0 := by decide) (hle : n ≤ 2 ^ 32 := by decide) (hwf : WellFormed i := by rfl) :
    StoreRule i (encode i) s ea v n := by
  subst hea hv hn
  have hpass := afterPassage_of_isStore hpos s
  have hmem := congrArg State.mem hpass
  refine ⟨decodeEncodeRoundTrip i hwf, afterPassage i s, passes_afterPassage i h, ?_, fun a => ?_⟩
  · rw [hmem]
    exact hpass
  · rw [hmem]
    exact byteRead_memWrite hm _ _ a hle

end LoadStoreRule

/-- Settles O42: the latch that reaches Memory holds the address and the data of `MemWrite`, and a read after that write
finds just those bytes. -/
theorem storesChangeOnlyTheirBytes : Obligations.StoresChangeOnlyTheirBytes := by
  unfold Obligations.StoresChangeOnlyTheirBytes
  intro rs rt offset s h hm ea v
  exact ⟨storeRule_of_store h hm rfl rfl rfl, storeRule_of_store h hm rfl rfl rfl,
    storeRule_of_store h hm rfl rfl rfl⟩

/-- Settles O41: Execute makes the effective address from the base Decode has read, and Memory reads at it. -/
theorem loadsFillTheRegister : Obligations.LoadsFillTheRegister := by
  unfold Obligations.LoadsFillTheRegister
  intro rs rt offset s h ea
  exact ⟨registerRule_of_load h rfl, registerRule_of_load h rfl, registerRule_of_load h rfl⟩

end Sys2Proof.Proofs

namespace Sys2Proof.Proofs

open Sys2Proof Sys2Proof.Machine Sys2Proof.Statement

/-! ### A consumer behind its producer, cycle by cycle (R197, R260) -/

/-! #### The producers that Decode meets in this cycle -/

section Producers
variable (s : State) (r : Reg)

/-- The instruction about to execute is the one in `EX_MEM` when Decode runs. -/
theorem produces_beforeDecode_exMem : Produces (beforeDecode s).exMem r ↔ Produces s.idEx r := by
  rw [beforeDecode_exMem]
  rfl

/-- The instruction about to access memory is the one in `MEM_WB` when Decode runs. -/
theorem produces_beforeDecode_memWb : Produces (beforeDecode s).memWb r ↔ Produces s.exMem r := by
  rw [beforeDecode_memWb]
  rfl

theorem isLoadWord_beforeDecode_exMem : isLoadWord (beforeDecode s).exMem.ir = isLoadWord s.idEx.ir := by
  rw [beforeDecode_exMem, computed]

theorem not_produces_clear : ¬Produces Latch.clear r := fun h => nomatch h.1

end Producers

section Demand
variable {s : State} {i : Instr} (hd : decode s.ifId.ir = .instr i)
include hd

/-- The stall demanded in this cycle is the largest one of a source (R96). -/
theorem stallDemand_beforeDecode : stallDemand (beforeDecode s) = stallNeeded (issueOf i s.ifId.ir) (beforeDecode s) := by
  rw [stallDemand_of_decode (i := i) (by rwa [beforeDecode_ifId]), beforeDecode_ifId]

/-- R94: 2 cycles directly behind a producer. -/
theorem stallDemand_directly_behind (hf : s.forwarding = false) (hp : ∃ r ∈ sourcesOf i, Produces s.idEx r) :
    stallDemand (beforeDecode s) = 2 := by
  obtain ⟨r, hr, hx⟩ := hp
  have hf' : (beforeDecode s).forwarding = false := (beforeDecode_forwarding s).trans hf
  rw [stallDemand_beforeDecode hd]
  exact stallNeeded_issueOf_eq _ (fun q _ => stallOf_le _ (some q))
    ⟨r, hr, stallOf_of_produces_exMem hf' ((produces_beforeDecode_exMem s r).2 hx)⟩

/-- R94: 1 cycle two behind a producer. -/
theorem stallDemand_two_behind (hf : s.forwarding = false) (hno : ∀ r ∈ sourcesOf i, ¬Produces s.idEx r)
    (hp : ∃ r ∈ sourcesOf i, Produces s.exMem r) : stallDemand (beforeDecode s) = 1 := by
  obtain ⟨r, hr, hm⟩ := hp
  have hf' : (beforeDecode s).forwarding = false := (beforeDecode_forwarding s).trans hf
  have hno' (q : Reg) (hq : q ∈ sourcesOf i) : ¬Produces (beforeDecode s).exMem q :=
    mt (produces_beforeDecode_exMem s q).1 (hno q hq)
  rw [stallDemand_beforeDecode hd]
  exact stallNeeded_issueOf_eq _ (fun q hq => stallOf_le_one hf' (hno' q hq))
    ⟨r, hr, stallOf_of_produces_memWb hf' (hno' r hr) ((produces_beforeDecode_memWb s r).2 hm)⟩

/-- R95: 1 cycle directly behind a load. -/
theorem stallDemand_behind_load (hf : s.forwarding = true) (hl : isLoadWord s.idEx.ir = true)
    (hp : ∃ r ∈ sourcesOf i, Produces s.idEx r) : stallDemand (beforeDecode s) = 1 := by
  obtain ⟨r, hr, hx⟩ := hp
  have hf' : (beforeDecode s).forwarding = true := (beforeDecode_forwarding s).trans hf
  have hl' := (isLoadWord_beforeDecode_exMem s).trans hl
  have hle (q : Reg) (_ : q ∈ sourcesOf i) : stallOf (beforeDecode s) (some q) ≤ 1 := by
    rcases stallOf_of_forwarding_enabled (r := q) hf' with h | ⟨h, -, -⟩ <;> omega
  rw [stallDemand_beforeDecode hd]
  exact stallNeeded_issueOf_eq _ hle ⟨r, hr, stallOf_behind_load hf' ((produces_beforeDecode_exMem s r).2 hx) hl'⟩

/-- R95: no stall with forwarding, unless directly behind a load. -/
theorem stallDemand_of_forwarding (hf : s.forwarding = true)
    (hno : isLoadWord s.idEx.ir = false ∨ ∀ r ∈ sourcesOf i, ¬Produces s.idEx r) :
    stallDemand (beforeDecode s) = 0 := by
  have hf' : (beforeDecode s).forwarding = true := (beforeDecode_forwarding s).trans hf
  rw [stallDemand_beforeDecode hd, stallNeeded_issueOf_eq_zero_iff]
  refine fun r hr => (stallOf_of_forwarding_enabled hf').resolve_right fun ⟨_, hl, hx⟩ => ?_
  rcases hno with hno | hno
  · rw [isLoadWord_beforeDecode_exMem, hno] at hl
    exact Bool.false_ne_true hl
  · exact hno r hr ((produces_beforeDecode_exMem s r).1 hx)

/-- No stall, in either mode, if neither of the two instructions ahead writes a source. -/
theorem stallDemand_of_no_source_produced (hx : ∀ r ∈ sourcesOf i, ¬Produces s.idEx r)
    (hm : ∀ r ∈ sourcesOf i, ¬Produces s.exMem r) : stallDemand (beforeDecode s) = 0 := by
  rw [stallDemand_beforeDecode hd, stallNeeded_issueOf_eq_zero_iff]
  exact fun r hr => stallOf_of_not_produces (mt (produces_beforeDecode_exMem s r).1 (hx r hr))
    (mt (produces_beforeDecode_memWb s r).1 (hm r hr))

end Demand

/-! #### A cycle that holds the consumer, and a cycle that issues it -/

/-- A cycle at whose end the core runs on, no transfer is pending, and the mode is as before. -/
structure RunsOn (s t : State) : Prop extends MovesOn s t where
  running : t.halted = false
  forwarding : t.forwarding = s.forwarding

theorem runsOn_of_step {s t : State} (hrun : s.halted = false) (hnxt : s.nxt = s.cur) (hsys : ¬IsSyscall s.memWb.ir)
    (hstep : step s = .next t) : RunsOn s t := by
  have hm := movesOn_of_step hrun hnxt hstep
  obtain ⟨-, -, -, hf, -⟩ := cycleEndsWithCommit s t hrun hstep
  exact { hm with running := hm.halted.trans (Bool.eq_false_iff.2 fun h => hsys (haltsFrom_iff.1 h).1), forwarding := hf }

/-- The instruction in `IF_ID` is held there, a bubble goes on to Execute, and `n` more cycles of the stall are left. -/
structure Holds (s t : State) (n : Nat) : Prop where
  idEx : t.idEx = Latch.clear
  ifId : t.ifId = s.ifId
  stall : t.stall = n

section Cycle
variable {s t : State} (hrun : s.halted = false) (hstep : step s = .next t)
  (hb : (executed s).branchPending = false)
include hrun hstep hb

/-- R88, R99: the stall that Decode leaves to Fetch. -/
theorem holds_of_beforeFetch_stall {n : Nat} (hnxt : s.nxt = s.cur) (hs : (beforeFetch s).stall = n + 1) :
    Holds s t n := by
  obtain ⟨hifId, -, hstall⟩ := fetch_of_stall hrun hstep hnxt hb (hs ▸ n.succ_pos)
  refine ⟨?_, hifId, by rw [hstall, hs, Nat.add_sub_cancel]⟩
  have hidEx : t.idEx = (afterDecode (beforeDecode s)).idEx := by
    simp [eq_commit_of_step hrun hstep, beforeCommit, beforeFetch_eq]
  rw [beforeFetch_eq] at hs
  rw [hidEx, afterDecode_idEx_of_blocked (.inr (hs ▸ n.succ_pos))]

/-- R96: the cycle in which Decode demands the stall. -/
theorem holds_of_stallDemand {n : Nat} (hnxt : s.nxt = s.cur) (hs : s.stall = 0)
    (hdemand : stallDemand (beforeDecode s) = n + 1) : Holds s t n := by
  refine holds_of_beforeFetch_stall hrun hstep hb hnxt ?_
  rw [beforeFetch_eq, afterDecode_of_ready ((executed_branchPending s).symm.trans hb) ((beforeDecode_stall s).trans hs)]
  simp [afterIssue, hdemand]

/-- R88: a cycle that an earlier stall takes up. -/
theorem holds_of_stall {n : Nat} (hnxt : s.nxt = s.cur) (hs : s.stall = n + 1) : Holds s t n := by
  refine holds_of_beforeFetch_stall hrun hstep hb hnxt ?_
  have hs' : (beforeDecode s).stall = n + 1 := (beforeDecode_stall s).trans hs
  rw [beforeFetch_eq, afterDecode_of_blocked (.inr (hs' ▸ n.succ_pos))]
  exact hs'

theorem idEx_ir_of_step_of_ready (hs : s.stall = 0) (hdemand : stallDemand (beforeDecode s) = 0) :
    t.idEx.ir = s.ifId.ir := by
  rw [idEx_of_step_of_ready hrun hstep hs hb hdemand, issued_ir, beforeDecode_ifId]

end Cycle

/-- A bubble raises no transfer in Execute. -/
theorem executed_branchPending_of_bubble {s : State} (hidEx : s.idEx = Latch.clear) (hb : s.branchPending = false) :
    (executed s).branchPending = false := by
  rw [executed_branchPending, beforeDecode_branchPending, hidEx, latchTransfer_clear, hb]
  rfl

/-- With a bubble in `ID_EX` the instruction in `IF_ID` issues, if the instruction about to access memory writes none of
its sources or forwarding gives it its value. -/
theorem idEx_ir_of_step_behind_bubble {s t : State} {i : Instr} (hrun : s.halted = false) (hstep : step s = .next t)
    (hd : decode s.ifId.ir = .instr i) (hidEx : s.idEx = Latch.clear) (hb : s.branchPending = false) (hs : s.stall = 0)
    (hm : s.forwarding = true ∨ ∀ r ∈ sourcesOf i, ¬Produces s.exMem r) : t.idEx.ir = s.ifId.ir := by
  have hx (r : Reg) (_ : r ∈ sourcesOf i) : ¬Produces s.idEx r := hidEx ▸ not_produces_clear r
  have hdemand : stallDemand (beforeDecode s) = 0 := by
    rcases hm with hf | hm
    · exact stallDemand_of_forwarding hd hf (.inr hx)
    · exact stallDemand_of_no_source_produced hd hx hm
  exact idEx_ir_of_step_of_ready hrun hstep (executed_branchPending_of_bubble hidEx hb) hs hdemand

/-- Settles O53: the stall demanded in the first cycle is 2, 1 or 0; when it is over the producer has retired, or its value
can be forwarded. -/
theorem consumerDirectlyBehindProducer : Obligations.ConsumerDirectlyBehindProducer := by
  unfold Obligations.ConsumerDirectlyBehindProducer
  intro s t1 t2 t3 i hinv hrun hs hd hp hb hsys hsys' hstep1 hstep2 hstep3
  obtain ⟨hnxt, -⟩ := hinv
  have h1 := runsOn_of_step hrun hnxt hsys hstep1
  refine ⟨fun hf => ?_, fun hf hl => ?_, fun hf hl => ?_⟩
  · have w1 := holds_of_stallDemand hrun hstep1 hb hnxt hs (stallDemand_directly_behind hd hf hp)
    have hb1 := executed_branchPending_of_bubble w1.idEx h1.branchPending
    have w2 := holds_of_stall h1.running hstep2 hb1 h1.nxt w1.stall
    have hsys1 : ¬IsSyscall t1.memWb.ir := by rwa [h1.memWb, loaded]
    have h2 := runsOn_of_step h1.running h1.nxt hsys1 hstep2
    have hifId : t2.ifId = s.ifId := w2.ifId.trans w1.ifId
    have hexMem : t2.exMem = Latch.clear := by rw [h2.exMem, w1.idEx, computed_clear]
    refine ⟨w1.idEx, w1.ifId, w2.idEx, hifId, ?_⟩
    rw [← hifId] at hd ⊢
    exact idEx_ir_of_step_behind_bubble h2.running hstep3 hd w2.idEx h2.branchPending w2.stall
      (.inr fun r _ => hexMem ▸ not_produces_clear r)
  · have w1 := holds_of_stallDemand hrun hstep1 hb hnxt hs (stallDemand_behind_load hd hf hl hp)
    refine ⟨w1.idEx, w1.ifId, ?_⟩
    rw [← w1.ifId] at hd ⊢
    exact idEx_ir_of_step_behind_bubble h1.running hstep2 hd w1.idEx h1.branchPending w1.stall
      (.inl (h1.forwarding.trans hf))
  · exact idEx_ir_of_step_of_ready hrun hstep1 hb hs (stallDemand_of_forwarding hd hf (.inl hl))

/-! #### The values the consumer issues with -/

/-- With forwarding a consumer that is not directly behind its producer issues in this cycle, each source taken from its
youngest producer (R95, R97). -/
theorem idEx_of_step_of_forwarding {s t : State} {i : Instr} (hrun : s.halted = false) (hstep : step s = .next t)
    (hb : (executed s).branchPending = false) (hs : s.stall = 0) (hd : decode s.ifId.ir = .instr i) (hi : i ≠ .nop)
    (hf : s.forwarding = true) (hx : ∀ r ∈ sourcesOf i, ¬Produces s.idEx r) :
    t.idEx = issuedFor i (beforeDecode s) (forwardedValue (beforeDecode s)) := by
  have hdemand := stallDemand_of_forwarding hd hf (.inr hx)
  have hf' : (beforeDecode s).forwarding = true := (beforeDecode_forwarding s).trans hf
  have hd' : decode (beforeDecode s).ifId.ir = .instr i := by rwa [beforeDecode_ifId]
  rw [idEx_of_step_of_ready hrun hstep hs hb hdemand, issued_of_decode hd', latchFor_of_ne_nop hi]
  rw [stallDemand_of_decode hd', stallNeeded_issueOf_eq_zero_iff] at hdemand
  exact issuedFor_congr fun r hr => operandValue_of_forwarding_enabled hf' (hdemand r hr)

/-- R95: the value of a source that only the instruction about to access memory writes is what that access loads, or the
ALU result it carries. -/
theorem forwardedValue_beforeDecode_two_behind {s : State} {r : Reg} (hx : ¬Produces s.idEx r)
    (hm : Produces s.exMem r) :
    forwardedValue (beforeDecode s) r =
      if isLoadWord s.exMem.ir then (loaded s.params s.mem s.exMem).lmd else s.exMem.aluOutput := by
  have hx' := mt (produces_beforeDecode_exMem s r).1 hx
  have hm' := (produces_beforeDecode_memWb s r).2 hm
  have hvalue : forwardedValue (beforeDecode s) r =
      if isLoadWord (beforeDecode s).memWb.ir then (beforeDecode s).memWb.lmd else (beforeDecode s).memWb.aluOutput :=
    (if_neg hx').trans (if_pos hm')
  rw [hvalue, beforeDecode_memWb]
  rfl

/-- The operand fields of an issued latch, each from its source. -/
theorem issuedFor_operands (i : Instr) (s : State) (value : Reg → Word) (r : Reg) :
    (sourceA i = some r → (issuedFor i s value).a = value r) ∧
    (sourceB i = some r → (issuedFor i s value).b = value r) ∧
    (sourceStore i = some r → (issuedFor i s value).storeData = value r) :=
  ⟨congrArg (fieldFrom value), congrArg (fieldFrom value), congrArg (fieldFrom value)⟩

/-- Settles O54: without forwarding the stall demanded is 1, and in the next cycle the producer retires before Decode reads;
with it the consumer issues, with the value the producer takes to Writeback. -/
theorem consumerTwoBehindProducer : Obligations.ConsumerTwoBehindProducer := by
  unfold Obligations.ConsumerTwoBehindProducer
  intro s t1 t2 i hinv hrun hs hd hp hx hb hsys hstep1 hstep2
  obtain ⟨hnxt, -⟩ := hinv
  have h1 := runsOn_of_step hrun hnxt hsys hstep1
  refine ⟨fun hf => ?_, fun hf => ?_⟩
  · have w1 := holds_of_stallDemand hrun hstep1 hb hnxt hs (stallDemand_two_behind hd hf hx hp)
    have hx1 (r : Reg) (hr : r ∈ sourcesOf i) : ¬Produces t1.exMem r := h1.exMem ▸ hx r hr
    refine ⟨w1.idEx, w1.ifId, ?_⟩
    rw [← w1.ifId] at hd ⊢
    exact idEx_ir_of_step_behind_bubble h1.running hstep2 hd w1.idEx h1.branchPending w1.stall (.inr hx1)
  · have hi : i ≠ .nop := by
      obtain ⟨r, hr, -⟩ := hp
      rintro rfl
      exact nomatch hr
    refine ⟨idEx_ir_of_step_of_ready hrun hstep1 hb hs (stallDemand_of_forwarding hd hf (.inr hx)), fun r hm => ?_⟩
    have hvalue (hr : r ∈ sourcesOf i) := forwardedValue_beforeDecode_two_behind (hx r hr) hm
    obtain ⟨ha, hb', hst⟩ := issuedFor_operands i (beforeDecode s) (forwardedValue (beforeDecode s)) r
    rw [idEx_of_step_of_forwarding hrun hstep1 hb hs hd hi hf hx, h1.memWb]
    exact ⟨fun h => (ha h).trans (hvalue (mem_sourcesOf_iff.2 (.inl h))),
      fun h => (hb' h).trans (hvalue (mem_sourcesOf_iff.2 (.inr (.inl h)))),
      fun h => (hst h).trans (hvalue (mem_sourcesOf_iff.2 (.inr (.inr h))))⟩

end Sys2Proof.Proofs

namespace Sys2Proof.Proofs

open Sys2Proof Sys2Proof.Machine Sys2Proof.Statement

/-! ### SYSCALL and the NOP passing, whatever is in flight (R210, R211) -/

/-- An instruction without sources issues whatever the producers ahead: no operand is checked against them (R75, R96). -/
theorem exec_at_decode_of_no_sources {i : Instr} (hi : sourcesOf i = []) (s : State) :
    exec i (s.at .decode) = .next ((s.at .decode).setIdEx (sentLatch i s (readReg s.nxt.x))) := by
  cases i with
  | nop | lui | mfhi | mflo | j | jal | syscall => rfl
  | _ => exact nomatch hi

theorem passes_afterPassage_of_no_sources {i : Instr} (hi : sourcesOf i = []) (s : State) :
    Passes i s (afterPassage i s) := by
  obtain ⟨hw, hr⟩ := sentLatch_namesDest i s (readReg s.nxt.x)
  exact ⟨_, _, _, exec_at_decode_of_no_sources hi s, exec_at_execute i _, exec_at_memory i _, exec_at_writeback ⟨hw, hr⟩⟩

/-- Settles O44: SYSCALL has no source, so it passes whatever is in flight, and of the four units only Writeback acts,
on `halted`. -/
theorem syscallHaltsOnCodeTen : Obligations.SyscallHaltsOnCodeTen := by
  unfold Obligations.SyscallHaltsOnCodeTen
  intro code s
  have hdecode : decode (encode (.syscall code)) = .instr (.syscall code) := decodeEncodeRoundTrip (.syscall code) rfl
  refine ⟨hdecode, afterPassage (.syscall code) s, passes_afterPassage_of_no_sources rfl s, rfl, ?_⟩
  have hhalted : (afterPassage (.syscall code) s).halted = (haltsOn (.syscall code) s.cur.x || s.halted) := rfl
  have hcode : haltsOn (.syscall code) s.cur.x = true ↔ readReg s.cur.x 2 = 10 :=
    haltsOn_iff.trans (and_iff_right rfl)
  rw [hhalted, Bool.or_eq_true, hcode, or_comm]

/-- Settles O45: the NOP is sent on as a bubble, which the other units copy; Decode of a zero word does the same. -/
theorem nopLeavesBubbles : Obligations.NopLeavesBubbles := by
  unfold Obligations.NopLeavesBubbles
  refine ⟨decode_zero, fun s => ⟨afterPassage .nop s, passes_afterPassage_of_no_sources rfl s, rfl, ?_⟩⟩
  intro hs hb hir
  exact ⟨_, decodeUnit_eq s, by rw [afterDecode_of_ready hb hs, afterIssue_of_nop hir]; rfl⟩

/-! ### An unimplemented word in each unit (R212, R89) -/

section Unimplemented
variable {s : State} {w : Word}

/-- R89: a word that is neither flushed nor stalled issues, with no source and no destination, and is reported. -/
theorem decodeUnit_of_unimplemented (hd : decode s.ifId.ir = .unimplemented w) (hb : s.branchPending = false)
    (hs : s.stall = 0) : decodeUnit s = .next (issueUnimplemented (s.at .decode)) := by
  rcases decodeUnit_cases s with ⟨hwhy, -⟩ | ⟨-, -, h⟩
  · simp [hb, hs] at hwhy
  · exact h.trans (runUnit_unimplemented s hd)

theorem executeUnit_of_unimplemented (hd : decode s.idEx.ir = .unimplemented w) :
    executeUnit s = .next (executePass (s.at .execute)) := runUnit_unimplemented s hd

theorem memoryUnit_of_unimplemented (hd : decode s.exMem.ir = .unimplemented w) :
    memoryUnit s = .next (memoryPass (s.at .memory)) := runUnit_unimplemented s hd

/-- R83: Writeback looks at `RegWrite` alone; Decode has issued the word with the bit clear. -/
theorem writebackUnit_of_unimplemented (hd : decode s.memWb.ir = .unimplemented w) (hw : s.memWb.regWrite = false) :
    writebackUnit s = .next (s.at .writeback) := by
  have hunit : writebackUnit s = .next (writebackResult (s.at .writeback)) := runUnit_unimplemented s hd
  rcases writebackResult_cases (s.at .writeback) with ⟨hw', -⟩ | ⟨-, h⟩
  · exact absurd (hw.symm.trans hw') Bool.false_ne_true
  · rw [hunit, h]

end Unimplemented

/-- Settles O46: each unit's answer for an unimplemented word, as a record. -/
theorem unimplementedWordIsReportedNoOp : Obligations.UnimplementedWordIsReportedNoOp := by
  unfold Obligations.UnimplementedWordIsReportedNoOp
  refine ⟨?decode, ?execute, ?memory, ?writeback⟩
  case decode => exact fun s w hd hb hs => decodeUnit_of_unimplemented hd hb hs
  case execute => exact fun s w hd => executeUnit_of_unimplemented hd
  case memory => exact fun s w hd => memoryUnit_of_unimplemented hd
  case writeback => exact fun s w hd hw => writebackUnit_of_unimplemented hd hw

end Sys2Proof.Proofs

namespace Sys2Proof.Proofs

open Sys2Proof Sys2Proof.Machine

/-! ### No faults, no refusals (R220) -/

/-- Whatever an instruction's four contributions are, the running unit's one answers a next state. -/
theorem exists_byStage (d e m w : State → State) (s : State) : ∃ t, byStage d e m w s = .next t := by
  rcases byStage_cases d e m w s with ⟨-, h⟩ | ⟨-, h⟩ | ⟨-, h⟩ | ⟨-, h⟩ <;> exact ⟨_, h⟩

/-- Every instruction acts through a contribution to each of the four units; what depends on a value, such as a divisor or
an address, does so inside a contribution. Where one is written as a function of the state, the definition is opened
first, since unification alone does not find it. -/
theorem exec_eq_byStage (i : Instr) (s : State) : ∃ d e m w, exec i s = byStage d e m w s := by
  cases i with
  | nop =>
    dsimp only [exec, execNop]
    exact ⟨_, _, _, _, rfl⟩
  | mult | multu | div | divu =>
    dsimp only [exec, execMult, execMultu, execDiv, execDivu, hiLoOp]
    exact ⟨_, _, _, _, rfl⟩
  | mthi | mtlo =>
    dsimp only [exec, execMthi, execMtlo]
    exact ⟨_, _, _, _, rfl⟩
  | _ => exact ⟨_, _, _, _, rfl⟩

theorem exists_exec (i : Instr) (s : State) : ∃ t, exec i s = .next t := by
  obtain ⟨d, e, m, w, h⟩ := exec_eq_byStage i s
  exact h ▸ exists_byStage d e m w s

/-- Settles O9: an instruction answers through its contributions to the units, a step through the units. -/
theorem nothingFaultsOrRefuses : Obligations.NothingFaultsOrRefuses := ⟨exists_exec, exists_step⟩

end Sys2Proof.Proofs

namespace Sys2Proof.Proofs

open Sys2Proof Sys2Proof.Machine Sys2Proof.Statement

/-! ### The halting cycle (R255, R83, R224) -/

/-- A SYSCALL retires without writing a register (R83, R210). -/
theorem retired_of_isSyscall {l : Latch} (h : IsSyscall l.ir) (x : Vector Word 32) : retired l x = x := by
  refine if_neg fun hr => ?_
  obtain ⟨-, hno, -⟩ := retires_iff_writesRegister.1 hr
  exact hno h

/-! #### What the instruction behind it stores -/

theorem stored_of_decode {l : Latch} {i : Instr} (hd : decode l.ir = .instr i) (p : Config.Params) (m : Memory) :
    stored p m l = memWrite p m l.aluOutput (bytesStored i) l.storeData := by
  rw [stored, storeSize_of_decode hd]

theorem stored_of_storeSize_eq_zero {l : Latch} (h : storeSize l.ir = 0) (p : Config.Params) (m : Memory) :
    stored p m l = m := by
  rw [stored, h]
  rfl

/-! #### What the instruction two behind it writes to HI and LO -/

theorem hiLoWritten_of_decode {l : Latch} {i : Instr} (hd : decode l.ir = .instr i) (p : Config.Params)
    (hiLo : Word × Word) : hiLoWritten p hiLo l = hiLoAfter p hiLo l (.instr i) := by
  rw [hiLoWritten, hd]

/-- Settles O49: Writeback of the SYSCALL sets `halted` and writes no register, while Memory, Execute and Fetch do in
this cycle what they do in any other; the next step finds a halted core. -/
theorem haltingCycleFinishesTheStages : Obligations.HaltingCycleFinishesTheStages := by
  unfold Obligations.HaltingCycleFinishesTheStages
  intro s t hinv hrun hsys hcode hstep
  obtain ⟨hnxt, -⟩ := hinv
  have hm := movesOn_of_step hrun hnxt hstep
  have hhalted : t.halted = true := hm.halted.trans (haltsFrom_iff.2 ⟨hsys, hcode⟩)
  have hx : t.cur.x = s.cur.x := hm.x.trans (retired_of_isSyscall hsys _)
  obtain ⟨-, -, hcount, -⟩ := cycleEndsWithCommit s t hrun hstep
  obtain ⟨hhi, hlo⟩ := cur_hiLo_of_step hrun hnxt hstep
  have hstore {i : Instr} (hd : decode s.exMem.ir = .instr i) :
      t.mem = memWrite s.params s.mem s.exMem.aluOutput (bytesStored i) s.exMem.storeData :=
    hm.mem.trans (stored_of_decode hd _ _)
  refine ⟨hhalted, hx, hcount, hhi, hlo, fun _ _ _ hd => hstore hd, fun _ _ _ hd => hstore hd,
    fun _ _ _ hd => hstore hd, fun h0 => hm.mem.trans (stored_of_storeSize_eq_zero h0 _ _), ?mult, ?multu,
    fun hb => ?redirect, step_of_halted hhalted⟩
  case mult =>
    intro rs rt rd sh hd
    rw [hm.hi, hm.lo, hiLoWritten_of_decode hd]
    exact signedProduct_toInt _ _
  case multu =>
    intro rs rt rd sh hd
    rw [hm.hi, hm.lo, hiLoWritten_of_decode hd]
    exact unsignedProduct_toNat _ _
  case redirect =>
    obtain ⟨-, hpc, -⟩ := fetch_of_taken hrun hstep hb
    exact hpc

end Sys2Proof.Proofs

namespace Sys2Proof.Proofs

open Sys2Proof Sys2Proof.Machine Sys2Proof.Statement

/-! ### The loader (R240, R246) -/

/-- The memory after the loader has delivered `cells`, in their order, over the memory `m`. -/
def deliver (p : Config.Params) (cells : List (Nat × Byte)) (m : Memory) : Memory :=
  cells.foldl (fun m cell => byteWrite p m (BitVec.ofNat 32 cell.1) cell.2) m

theorem loadImage_eq_deliver (p : Config.Params) : loadImage p = deliver p p.image [] := rfl

section Deliver
variable {p : Config.Params} {m : Memory}

theorem deliver_append_cons (before after : List (Nat × Byte)) (k : Nat) (b : Byte) :
    deliver p (before ++ (k, b) :: after) m =
      deliver p after (byteWrite p (deliver p before m) (BitVec.ofNat 32 k) b) := by
  rw [deliver, List.foldl_append, List.foldl_cons]
  rfl

theorem deliver_wf (cells : List (Nat × Byte)) (hm : m.wf = true) : (deliver p cells m).wf = true :=
  List.foldlRecOn (motive := fun m : Memory => m.wf = true) cells _ hm fun _ h _ _ => byteWrite_wf _ _ h

/-- A byte that no cell names keeps its value. -/
theorem byteRead_deliver_of_unnamed {cells : List (Nat × Byte)} {a : Word} (hm : m.wf = true)
    (hno : ∀ c ∈ cells, BitVec.ofNat 32 c.1 ≠ a) : byteRead p (deliver p cells m) a = byteRead p m a := by
  induction cells generalizing m with
  | nil => rfl
  | cons c cells ih =>
    obtain ⟨hc, hcells⟩ := List.forall_mem_cons.1 hno
    calc byteRead p (deliver p (c :: cells) m) a
        = byteRead p (byteWrite p m (BitVec.ofNat 32 c.1) c.2) a := ih (byteWrite_wf _ _ hm) hcells
      _ = byteRead p m a := by rw [byteRead_byteWrite _ _ _ hm, if_neg fun h => hc h.1.symm]

/-- The last cell that names a byte of a region gives it its value. -/
theorem byteRead_deliver_of_last_named {before after : List (Nat × Byte)} {k : Nat} {b : Byte} (hm : m.wf = true)
    (hlast : ∀ c ∈ after, BitVec.ofNat 32 c.1 ≠ BitVec.ofNat 32 k)
    (hregion : (regionOf p (BitVec.ofNat 32 k)).isSome = true) :
    byteRead p (deliver p (before ++ (k, b) :: after) m) (BitVec.ofNat 32 k) = b := by
  have hwf := deliver_wf (p := p) before hm
  rw [deliver_append_cons, byteRead_deliver_of_unnamed (byteWrite_wf _ _ hwf) hlast, byteRead_byteWrite _ _ _ hwf,
    if_pos ⟨rfl, hregion⟩]

end Deliver

theorem byteRead_zeroed (p : Config.Params) (a : Word) : byteRead p [] a = 0 := by
  cases h : regionOf p a <;> simp [byteRead, h, Memory.read, unlistedByte]

/-- Settles O3: the loader starts from zeroed regions and delivers the cells of the image one by one. -/
theorem loaderFillsZeroedMemory : Obligations.LoaderFillsZeroedMemory := by
  unfold Obligations.LoaderFillsZeroedMemory
  refine ⟨fun p a hno => ?unnamed, fun p before after k b himage hlast hregion => ?named⟩
  case unnamed => rw [loadImage_eq_deliver, byteRead_deliver_of_unnamed rfl hno, byteRead_zeroed]
  case named =>
    rw [loadImage_eq_deliver, himage]
    exact byteRead_deliver_of_last_named rfl hlast hregion

/-! ### The host's `step()` and `run(n)` (R248, R249) -/

section HostOps
variable {s t : State}

theorem hostStep_of_halted (h : s.halted = true) : hostStep s = .next (.alreadyHalted, s) := if_pos h

theorem hostStep_of_step (hrun : s.halted = false) (hstep : step s = .next t) : hostStep s = .next (.stepped, t) := by
  simp [hostStep, hrun, hstep]

theorem hostRun_of_halted (h : s.halted = true) (n : Nat) : hostRun n s = .next (0, s) := by
  cases n with
  | zero => rfl
  | succ n => exact if_pos h

theorem hostRun_succ_of_step {n k : Nat} {u : State} (hrun : s.halted = false) (hstep : step s = .next t)
    (hrest : hostRun n t = .next (k, u)) : hostRun (n + 1) s = .next (k + 1, u) := by
  simp [hostRun, hrun, hstep, hrest]

end HostOps

/-- Settles O6: the host's `step()` asks `halted` first, and a halted core's step is the identity (R82). -/
theorem haltedStepChangesNothing : Obligations.HaltedStepChangesNothing := by
  unfold Obligations.HaltedStepChangesNothing
  exact ⟨fun s h => ⟨step_of_halted h, hostStep_of_halted h⟩, fun s t => hostStep_of_step⟩

/-- Settles O7: by induction on `n`; a halted core ends the run with no cycle, and otherwise one cycle, counted once,
comes before the run of the rest. -/
theorem runStopsEarlyOnlyIfHalted : Obligations.RunStopsEarlyOnlyIfHalted := by
  unfold Obligations.RunStopsEarlyOnlyIfHalted
  intro n
  induction n with
  | zero => exact fun s => ⟨0, s, rfl, le_rfl, fun h => absurd h (lt_irrefl 0), steps_zero s, rfl⟩
  | succ n ih =>
    intro s
    cases hrun : s.halted with
    | true => exact ⟨0, s, hostRun_of_halted hrun _, Nat.zero_le _, fun _ => hrun, steps_zero s, rfl⟩
    | false =>
      obtain ⟨u, hstep⟩ := exists_step s
      obtain ⟨k, t, hrest, hle, hearly, hsteps, hcount⟩ := ih u
      obtain ⟨-, -, hcycle, -⟩ := cycleEndsWithCommit s u hrun hstep
      refine ⟨k + 1, t, hostRun_succ_of_step hrun hstep hrest, Nat.succ_le_succ hle,
        fun h => hearly (Nat.lt_of_succ_lt_succ h), (steps_succ_of_step hstep).trans hsteps, ?_⟩
      omega

/-! ### The example words (R61 to R71) -/

/-- A word is decoded by naming the instruction it is the encoding of. -/
theorem decode_of_encode_eq {w : Word} {i : Instr} (hw : encode i = w) (hi : WellFormed i := by rfl) :
    decode w = .instr i :=
  hw ▸ decodeEncodeRoundTrip i hi

/-- Settles O18: fourteen words are encodings of the instructions they stand for, and the last one is in no row of the
SPECIAL map. -/
theorem decodeExampleWords : Obligations.DecodeExampleWords := by
  unfold Obligations.DecodeExampleWords
  iterate 14 refine ⟨decode_of_encode_eq rfl, ?_⟩
  decide

end Sys2Proof.Proofs
